-- ==== Sys2Proof/Word.lean ====
section
/-! DEFINITION. The word types of the HUB75 BCM refresh core (spec 00_scope.md R5, R6, R8): bytes of a host
transaction and channel values, the bus word, the logical line word. All values are unsigned (R8). -/

namespace Sys2Proof

/-- Eight bits: a channel value (R90) and one byte of a host transaction (notes/assumptions/1.md). -/
abbrev Byte := BitVec 8

/-- A bus word: an unsigned number whose bit k, `testBit k`, is the physical bit position k of the output register (R8,
R63). Its width is the parameter W_MAX (10_state.md R21, R39), which no type fixes: log entry 15. -/
abbrev BusWord := Nat

/-- `w & ~mask` of 00_scope.md R9, for words whose width is a parameter. -/
def withoutBits (w mask : BusWord) : BusWord := w ^^^ (w &&& mask)

/-- The logical line word LW of 30_encoding.md R92: bit i is the line of role i. -/
abbrev LineWord := BitVec 14

/-- One BitPlane entry (30_encoding.md R91): bits 0..5 are R1, G1, B1, R2, G2, B2. -/
abbrev Entry := BitVec 6

end Sys2Proof
end

