-- ==== Sys2Proof/Config.lean ====
section
/-! DEFINITION. What is fixed before reset: the constants of 00_scope.md R5 and R6, and the two parameters the spec
leaves open (the contents of LIGHT and GAMMA, decision D23), as free constants with no body. -/

namespace Sys2Proof

/-- The value R6 and decision D2 give the parameter W_MAX: the one a machine has after power-on. Later states carry
the parameter as `State.wMax`, which no step writes, so that a claim over all states is a claim over every W_MAX
(10_state.md R39, item U13; log entry 15). -/
def Config.wMax : Nat := 32

/-- FRAME_W = FRAME_H = 64 (R5). -/
def Config.frameSide : Nat := 64

/-- The least and the greatest BCM depth (R5). -/
def Config.depthMin : Nat := 5
def Config.depthMax : Nat := 8

/-- Bus words of one row-scan step: 1 + 64×3 + N_RAL with N_RAL = 5 (R95, R172). -/
def Config.rowLen : Nat := 1 + 64 * 3 + 5

/-- Bus words of one full 32-row scan (R95, R172). -/
def Config.scanLen : Nat := 32 * Config.rowLen

/-- Free parameter (decision D23, item U5): the values the platform put into LIGHT, before the constraints of R121
are imposed by `Config.tableEntry`. No body: nothing can be proved of a particular entry.
Log entry 8. -/
opaque Config.lightSeed : Nat → Byte

/-- Free parameter (decision D23, item U5): as `lightSeed`, for GAMMA (R123). Log entry 8. -/
opaque Config.gammaSeed : Nat → Byte

/-- The greatest of `seed 1 .. seed n` (0 for n = 0). -/
def Config.runningMax (seed : Nat → Byte) : Nat → Nat
  | 0 => 0
  | n + 1 => max (Config.runningMax seed n) (seed (n + 1)).toNat

/-- Entry v of the table made of a seed: the monotone closure of the seed between the fixed ends f(0) = 0 and
f(255) = 255. Every table that R121 and R123 admit is the table of its own entries, and every seed gives an
admissible table (the statement SeededTablesAreTheAdmissibleOnes), so a free seed is exactly a free admissible table. -/
def Config.tableEntry (seed : Nat → Byte) (v : Nat) : Byte :=
  if v = 0 then 0 else if 255 ≤ v then 255 else BitVec.ofNat 8 (Config.runningMax seed v)

end Sys2Proof
end

