-- ==== Sys2Proof/Syntax.lean ====
section
/-! DEFINITION. The operations of the block, one constructor for each row of spec/opcode_table.json: the host
operations of 30_encoding.md R99 and the sequencer micro-operations of R100, with their operands. -/

namespace Sys2Proof

/-- A Pixel: three independent 8-bit channels (30_encoding.md R90). -/
structure Pixel where
  r : Byte
  g : Byte
  b : Byte
deriving DecidableEq, Repr

/-- A grid operand (42_framebuffer.md R151): offered dimensions and pixels, row-major, index y*w + x
(20_memory.md R61). `Grid.wf` in WellFormed.lean says that it carries w*h pixels (item U15). -/
structure Grid where
  w : Nat
  h : Nat
  pixels : List Pixel
deriving DecidableEq, Repr

/-- The 14 role to bit position assignments of a PinAssignment, in the role order of 41_pin_assignment.md R130. -/
structure Pins where
  r1 : Nat
  g1 : Nat
  b1 : Nat
  r2 : Nat
  g2 : Nat
  b2 : Nat
  a : Nat
  b : Nat
  c : Nat
  d : Nat
  e : Nat
  clk : Nat
  lat : Nat
  oe : Nat
deriving DecidableEq, Repr

/-- pos[i]: the bit position of role i (R130). -/
def Pins.pos (p : Pins) : Fin 14 → Nat
  | 0 => p.r1
  | 1 => p.g1
  | 2 => p.b1
  | 3 => p.r2
  | 4 => p.g2
  | 5 => p.b2
  | 6 => p.a
  | 7 => p.b
  | 8 => p.c
  | 9 => p.d
  | 10 => p.e
  | 11 => p.clk
  | 12 => p.lat
  | 13 => p.oe

/-- The two strategies of 43_bcm_encoder.md R185. -/
inductive Strategy where
  | timeline
  | direct
deriving DecidableEq, Repr

/-- A frame channel (R90). -/
inductive Channel where
  | red
  | green
  | blue
deriving DecidableEq, Repr

/-- chan_map: the frame channels shown by the R, G and B lines (43_bcm_encoder.md R174). An operand may fail to be a
permutation: CONFIGURE then rejects it (BAD_CHAN_MAP). -/
structure ChanMap where
  r : Channel
  g : Channel
  b : Channel
deriving DecidableEq, Repr

/-- The operations: format H (R99), then format M (R100). -/
inductive Instr where
  | configure (pins : Pins) (width depth : Nat) (strategy : Strategy) (chanMap : ChanMap) (dwellUnit : Nat)
  | fbReplace (grid : Grid)
  | fbIngest (grid : Grid)
  | fbWriteBegin
  | fbWriteCommit (grid : Grid)
  | fbSnapshot
  | start
  | stop
  | status
  | reset
  | lightnessCorrect (v : Byte)
  | gammaCorrect (v : Byte)
  | clr
  | data (c : Fin 64)
  | ckh
  | ckl
  | oed
  | ltl
  | lth
  | adr (r : Fin 32)
  | oee
  | endCycle
  | idle
  | hold (h : Nat)
deriving DecidableEq, Repr

end Sys2Proof
end

