-- ==== Sys2Proof/WellFormed.lean ====
section
/-! DEFINITION. Which terms of `Instr` are operations at all. Ranges of columns, rows and channel values are held by
the operand types (30_encoding.md R102); the one check left is that a grid of dimensions w×h carries w×h pixels
(42_framebuffer.md R159, 93_implementation_defined.md U15). -/

namespace Sys2Proof

/-- A grid of dimensions w×h has w×h pixels (R159, U15). -/
def Grid.wf (g : Grid) : Bool := g.pixels.length == g.w * g.h

/-- The well-formed operations. Operand values that an operation REJECTS (a bad pin position, a bad depth, a grid
that is not 64×64) are well-formed: their rejection is the operation's meaning. -/
def Instr.wf : Instr → Bool
  | .configure _ _ _ _ _ _ => true
  | .fbReplace g => g.wf
  | .fbIngest g => g.wf
  | .fbWriteBegin => true
  | .fbWriteCommit g => g.wf
  | .fbSnapshot => true
  | .start => true
  | .stop => true
  | .status => true
  | .reset => true
  | .lightnessCorrect _ => true
  | .gammaCorrect _ => true
  | .clr => true
  | .data _ => true
  | .ckh => true
  | .ckl => true
  | .oed => true
  | .ltl => true
  | .lth => true
  | .adr _ => true
  | .oee => true
  | .endCycle => true
  | .idle => true
  | .hold _ => true

/-- Format M: the micro-operations (R100), which are not available to HOST (44_sequencer_microops.md R200). -/
def Instr.isMicro : Instr → Bool
  | .configure _ _ _ _ _ _ => false
  | .fbReplace _ => false
  | .fbIngest _ => false
  | .fbWriteBegin => false
  | .fbWriteCommit _ => false
  | .fbSnapshot => false
  | .start => false
  | .stop => false
  | .status => false
  | .reset => false
  | .lightnessCorrect _ => false
  | .gammaCorrect _ => false
  | .clr => true
  | .data _ => true
  | .ckh => true
  | .ckl => true
  | .oed => true
  | .ltl => true
  | .lth => true
  | .adr _ => true
  | .oee => true
  | .endCycle => true
  | .idle => true
  | .hold _ => true

end Sys2Proof
end

