-- ==== Sys2Proof/Decode.lean ====
section
/-! DEFINITION. The operation codes of 30_encoding.md R99 and R100, the byte form of a transaction, its decoder
(total, rejecting by name) and its encoder. The codes and the order of the operands are the spec's; how an operand is
laid out in bytes is left to the platform by R99 and is this model's DESIGN CHOICE (notes/assumptions/1.md):
one code byte, then the operands in the order listed, a natural number in groups of 7 bits with a continuation bit,
least significant group first and no superfluous group; a channel value, a column, a row, a strategy, a channel
each in one byte; a pixel as its r, g, b bytes. -/

namespace Sys2Proof

/-- Why a byte string is no transaction (R102: no such operation; an operand outside its range). -/
inductive DecodeError where
  /-- The bytes end before the operands do. -/
  | truncated
  /-- The code byte is in neither table of R99 and R100 (U9). -/
  | unknownOperation (code : Byte)
  /-- A natural number with a superfluous last group. -/
  | superfluousGroup
  /-- The strategy byte is neither 0 (TIMELINE) nor 1 (DIRECT) (R29). -/
  | badStrategy (b : Byte)
  /-- A channel byte is none of 0 (r), 1 (g), 2 (b). -/
  | badChannel (b : Byte)
  /-- A column above 63: c has 6 bits (R100). -/
  | columnRange (b : Byte)
  /-- A row above 31: r has 5 bits (R100). -/
  | rowRange (b : Byte)
deriving DecidableEq, Repr

/-- What is read from the front of a byte string, and what is left of it. -/
abbrev Decoded (α : Type) := Except DecodeError (α × List Byte)

/-- Read one operand, then go on with what is left; the first error is the answer. -/
def readThen {α β : Type} (d : Decoded α) (f : α → List Byte → Decoded β) : Decoded β :=
  match d with
  | .error e => .error e
  | .ok (a, bs) => f a bs

/-- One byte. -/
def takeByte : List Byte → Decoded Byte
  | [] => .error .truncated
  | b :: bs => .ok (b, bs)

/-- One natural number. -/
def takeNat : List Byte → Decoded Nat
  | [] => .error .truncated
  | b :: bs =>
    if b.toNat < 128 then .ok (b.toNat, bs)
    else
      match takeNat bs with
      | .error e => .error e
      | .ok (n, rest) =>
        if n = 0 then .error .superfluousGroup else .ok (b.toNat % 128 + 128 * n, rest)

/-- One pixel, channels r, g, b (R90). -/
def takePixel : List Byte → Decoded Pixel
  | r :: g :: b :: bs => .ok (⟨r, g, b⟩, bs)
  | _ => .error .truncated

/-- n pixels. -/
def takePixels : Nat → List Byte → Decoded (List Pixel)
  | 0, bs => .ok ([], bs)
  | n + 1, bs =>
    readThen (takePixel bs) fun p bs =>
    readThen (takePixels n bs) fun ps bs =>
    .ok (p :: ps, bs)

/-- A grid (w, h, pixels), with w*h pixels (R99, U15). -/
def takeGrid (bs : List Byte) : Decoded Grid :=
  readThen (takeNat bs) fun w bs =>
  readThen (takeNat bs) fun h bs =>
  readThen (takePixels (w * h) bs) fun ps bs =>
  .ok (⟨w, h, ps⟩, bs)

/-- The 14 positions, role index 0 first (R99, R130). -/
def takePins (bs : List Byte) : Decoded Pins :=
  readThen (takeNat bs) fun r1 bs =>
  readThen (takeNat bs) fun g1 bs =>
  readThen (takeNat bs) fun b1 bs =>
  readThen (takeNat bs) fun r2 bs =>
  readThen (takeNat bs) fun g2 bs =>
  readThen (takeNat bs) fun b2 bs =>
  readThen (takeNat bs) fun a bs =>
  readThen (takeNat bs) fun b bs =>
  readThen (takeNat bs) fun c bs =>
  readThen (takeNat bs) fun d bs =>
  readThen (takeNat bs) fun e bs =>
  readThen (takeNat bs) fun clk bs =>
  readThen (takeNat bs) fun lat bs =>
  readThen (takeNat bs) fun oe bs =>
  .ok (⟨r1, g1, b1, r2, g2, b2, a, b, c, d, e, clk, lat, oe⟩, bs)

/-- A strategy: 0 = TIMELINE, 1 = DIRECT (R29). -/
def takeStrategy (bs : List Byte) : Decoded Strategy :=
  readThen (takeByte bs) fun x bs =>
  if x = 0 then .ok (.timeline, bs)
  else if x = 1 then .ok (.direct, bs)
  else .error (.badStrategy x)

/-- A frame channel. -/
def takeChannel (bs : List Byte) : Decoded Channel :=
  readThen (takeByte bs) fun x bs =>
  if x = 0 then .ok (.red, bs)
  else if x = 1 then .ok (.green, bs)
  else if x = 2 then .ok (.blue, bs)
  else .error (.badChannel x)

/-- A channel map: the channels of the R, G and B lines (R104). -/
def takeChanMap (bs : List Byte) : Decoded ChanMap :=
  readThen (takeChannel bs) fun r bs =>
  readThen (takeChannel bs) fun g bs =>
  readThen (takeChannel bs) fun b bs =>
  .ok (⟨r, g, b⟩, bs)

/-- A column, 6 bits (R100). -/
def takeColumn (bs : List Byte) : Decoded (Fin 64) :=
  readThen (takeByte bs) fun x bs =>
  if h : x.toNat < 64 then .ok (⟨x.toNat, h⟩, bs) else .error (.columnRange x)

/-- A scan row, 5 bits (R100). -/
def takeRow (bs : List Byte) : Decoded (Fin 32) :=
  readThen (takeByte bs) fun x bs =>
  if h : x.toNat < 32 then .ok (⟨x.toNat, h⟩, bs) else .error (.rowRange x)

/-- The operands of CONFIGURE, in the order of R99. A transaction carries all six: the default identity of chan_map
(41_pin_assignment.md R138) is taken by an issuer that writes R, G, B, and one that leaves the operand out is refused
(DESIGN CHOICE, log entry 27: R138 does not say how the default is taken, and R99 leaves the transport open). -/
def takeConfigure (bs : List Byte) : Decoded Instr :=
  readThen (takePins bs) fun pins bs =>
  readThen (takeNat bs) fun width bs =>
  readThen (takeNat bs) fun depth bs =>
  readThen (takeStrategy bs) fun strategy bs =>
  readThen (takeChanMap bs) fun chanMap bs =>
  readThen (takeNat bs) fun dwellUnit bs =>
  .ok (.configure pins width depth strategy chanMap dwellUnit, bs)

/-- The operands that follow code `code` (R99, R100). -/
def decodeBody (code : Byte) (bs : List Byte) : Decoded Instr :=
  match code.toNat with
  | 0x01 => takeConfigure bs
  | 0x02 => readThen (takeGrid bs) fun g bs => .ok (.fbReplace g, bs)
  | 0x03 => readThen (takeGrid bs) fun g bs => .ok (.fbIngest g, bs)
  | 0x04 => .ok (.fbWriteBegin, bs)
  | 0x05 => readThen (takeGrid bs) fun g bs => .ok (.fbWriteCommit g, bs)
  | 0x06 => .ok (.fbSnapshot, bs)
  | 0x07 => .ok (.start, bs)
  | 0x08 => .ok (.stop, bs)
  | 0x09 => .ok (.status, bs)
  | 0x0A => .ok (.reset, bs)
  | 0x20 => readThen (takeByte bs) fun v bs => .ok (.lightnessCorrect v, bs)
  | 0x21 => readThen (takeByte bs) fun v bs => .ok (.gammaCorrect v, bs)
  | 0x10 => .ok (.clr, bs)
  | 0x11 => readThen (takeColumn bs) fun c bs => .ok (.data c, bs)
  | 0x12 => .ok (.ckh, bs)
  | 0x13 => .ok (.ckl, bs)
  | 0x14 => .ok (.oed, bs)
  | 0x15 => .ok (.ltl, bs)
  | 0x16 => .ok (.lth, bs)
  | 0x17 => readThen (takeRow bs) fun r bs => .ok (.adr r, bs)
  | 0x18 => .ok (.oee, bs)
  | 0x19 => .ok (.endCycle, bs)
  | 0x1A => .ok (.idle, bs)
  | 0x1B => readThen (takeNat bs) fun h bs => .ok (.hold h, bs)
  | _ => .error (.unknownOperation code)

/-- The operation at the front of a byte string, and the bytes after it. -/
def decode : List Byte → Decoded Instr
  | [] => .error .truncated
  | code :: bs => decodeBody code bs

/-- A natural number's groups; `fuel` bounds their number (n itself is enough). -/
def natGroups : Nat → Nat → List Byte
  | 0, n => [BitVec.ofNat 8 n]
  | fuel + 1, n =>
    if n < 128 then [BitVec.ofNat 8 n]
    else BitVec.ofNat 8 (128 + n % 128) :: natGroups fuel (n / 128)

/-- The bytes of a natural number. -/
def encodeNat (n : Nat) : List Byte := natGroups n n

def encodePixel (p : Pixel) : List Byte := [p.r, p.g, p.b]

def encodeGrid (g : Grid) : List Byte := encodeNat g.w ++ encodeNat g.h ++ g.pixels.flatMap encodePixel

def encodePins (p : Pins) : List Byte :=
  encodeNat p.r1 ++ encodeNat p.g1 ++ encodeNat p.b1 ++ encodeNat p.r2 ++ encodeNat p.g2 ++ encodeNat p.b2 ++
  encodeNat p.a ++ encodeNat p.b ++ encodeNat p.c ++ encodeNat p.d ++ encodeNat p.e ++
  encodeNat p.clk ++ encodeNat p.lat ++ encodeNat p.oe

def encodeStrategy : Strategy → Byte
  | .timeline => 0
  | .direct => 1

def encodeChannel : Channel → Byte
  | .red => 0
  | .green => 1
  | .blue => 2

def encodeChanMap (m : ChanMap) : List Byte := [encodeChannel m.r, encodeChannel m.g, encodeChannel m.b]

/-- The operation code of R99 and R100. -/
def Instr.code : Instr → Byte
  | .configure _ _ _ _ _ _ => 0x01
  | .fbReplace _ => 0x02
  | .fbIngest _ => 0x03
  | .fbWriteBegin => 0x04
  | .fbWriteCommit _ => 0x05
  | .fbSnapshot => 0x06
  | .start => 0x07
  | .stop => 0x08
  | .status => 0x09
  | .reset => 0x0A
  | .lightnessCorrect _ => 0x20
  | .gammaCorrect _ => 0x21
  | .clr => 0x10
  | .data _ => 0x11
  | .ckh => 0x12
  | .ckl => 0x13
  | .oed => 0x14
  | .ltl => 0x15
  | .lth => 0x16
  | .adr _ => 0x17
  | .oee => 0x18
  | .endCycle => 0x19
  | .idle => 0x1A
  | .hold _ => 0x1B

/-- The operand bytes of an operation. -/
def Instr.operandBytes : Instr → List Byte
  | .configure pins width depth strategy chanMap dwellUnit =>
    encodePins pins ++ encodeNat width ++ encodeNat depth ++ [encodeStrategy strategy] ++ encodeChanMap chanMap ++
      encodeNat dwellUnit
  | .fbReplace g => encodeGrid g
  | .fbIngest g => encodeGrid g
  | .fbWriteBegin => []
  | .fbWriteCommit g => encodeGrid g
  | .fbSnapshot => []
  | .start => []
  | .stop => []
  | .status => []
  | .reset => []
  | .lightnessCorrect v => [v]
  | .gammaCorrect v => [v]
  | .clr => []
  | .data c => [BitVec.ofNat 8 c.val]
  | .ckh => []
  | .ckl => []
  | .oed => []
  | .ltl => []
  | .lth => []
  | .adr r => [BitVec.ofNat 8 r.val]
  | .oee => []
  | .endCycle => []
  | .idle => []
  | .hold h => encodeNat h

/-- The bytes of an operation: its code, then its operands. -/
def encode (i : Instr) : List Byte := i.code :: i.operandBytes

/-- The bytes of a table word: `nbits / 8` bytes of w, least significant first, then zero operand bytes up to the
longest operation whose operands are zeros (CONFIGURE: 21 operand bytes). -/
def tableBytes (nbits w : Nat) : List Byte :=
  (List.range (nbits / 8)).map (fun k => BitVec.ofNat 8 (w / 256 ^ k)) ++ List.replicate 21 0

/-- The instruction the decoder reads from a word of spec/opcode_table.json. -/
def decodeTableWord (nbits w : Nat) : Option Instr :=
  match decode (tableBytes nbits w) with
  | .ok (i, _) => some i
  | .error _ => none

end Sys2Proof
end

