-- ==== Sys2Proof/Machine/State.lean ====
section
/-! DEFINITION. The state of the block (10_state.md R20 to R35, R40) as plain data, its reset value, and the reasons a
step can stop. The last five fields of `State` are the model's own (notes/assumptions/2.md, 4.md, 14.md, 18.md): the
schedule of the agents' steps, the host operations that wait, what is observed (45_refresh_engine.md R254), and the bits
that EXT keeps off between a RESET and the next CONFIGURE. `wMax` is a parameter of the step relation (R39). -/

namespace Sys2Proof.Machine

/-- A Frame (R34): 64×64 pixels, row-major, pixel k = Frame[k mod 64][k div 64] (20_memory.md R61). -/
structure Frame where
  pixels : List Pixel
  size : pixels.length = 4096
deriving DecidableEq, Repr

/-- A read-only table of 256 entries of 8 bits (R33). -/
structure Table where
  entries : List Byte
  size : entries.length = 256
deriving DecidableEq, Repr

/-- LINES (R22): the line state the core last drove. `clk`, `lat`, `oe` are single lines; `oe = true` means output
disabled. -/
structure Lines where
  rgb : Entry
  addr : BitVec 5
  clk : Bool
  lat : Bool
  oe : Bool
deriving DecidableEq, Repr

/-- SEQ (R24): where the sequencer stands. `h` means something only in the Direct-mode hold phase q = 198. -/
inductive Position where
  | body (p : Fin 8) (n : Fin 128) (r : Fin 32) (q : Fin 199) (h : Nat)
  | endCycle
deriving DecidableEq, Repr

/-- ENG.run (R26). -/
inductive Run where
  | idle
  | running
  | stopping
  | faulted
deriving DecidableEq, Repr

/-- The configuration registers CFG.* (R29) apart from CFG.valid. -/
structure Cfg where
  width : Nat
  pins : Pins
  depth : Nat
  strategy : Strategy
  chanMap : ChanMap
  dwellUnit : Nat
deriving DecidableEq, Repr

/-- The derived masks (R30). -/
structure Masks where
  rgb : BusWord
  addr : BusWord
  clk : BusWord
  lat : BusWord
  oe : BusWord
  driven : BusWord
deriving DecidableEq, Repr

/-- An error record (class, cause, a, b) (R32, 30_encoding.md R101). -/
structure ErrRecord where
  cls : Nat
  cause : Nat
  a : Nat
  b : Nat
deriving DecidableEq, Repr

/-- STATUS (R31): the read-only view returned to HOST. `run` is 0 IDLE, 1 RUNNING, 2 STOPPING, 3 FAULTED. -/
structure StatusView where
  run : BitVec 2
  cfgValid : Bool
  stopreq : Bool
  wbusy : Bool
  pend : Bool
  fbGen : Nat
  actGen : Nat
deriving DecidableEq, Repr

/-- What a host operation returns to its issuer (30_encoding.md R99). -/
inductive Result where
  /-- No host operation has returned yet. -/
  | none
  | ok
  | error (e : ErrRecord)
  | snapshot (frame : Frame) (gen : Nat)
  | status (view : StatusView) (err : ErrRecord)
  | value (v : Byte)
deriving DecidableEq, Repr

/-- One entry of the observation (45_refresh_engine.md R254): a bus write with the line word it drives, or a silent
HOLD tick. -/
inductive TraceEvent where
  | write (word : LineWord)
  | hold
deriving DecidableEq, Repr

/-- One scheduled step of one agent (00_scope.md R7). -/
inductive AgentStep where
  /-- HOST issues the transaction with these bytes. -/
  | host (bytes : List Byte)
  /-- HOST's k-th waiting operation is issued again. -/
  | resume (k : Nat)
  /-- ENGINE ticks. -/
  | tick
  /-- EXT puts the bits it owns to those of `word`. -/
  | ext (word : BusWord)
  /-- ENV raises an internal engine fault. -/
  | envFault (cause : Nat)
deriving DecidableEq, Repr

/-- Which unspecified element a step would have had to read (R40). -/
inductive Unspecified where
  | configuration
  | masks
  | position
deriving DecidableEq, Repr

/-- Reasons a step stops with a fault. -/
inductive Fault where
  /-- Raised by a bus write, by DATA and HOLD, by Publish and by a tick that would read CFG, a mask or SEQ while
  CFG.valid = 0: R40 says that a model must treat such a read as a fault of the model. Safe: no reachable state does
  it. -/
  | unspecifiedRead (element : Unspecified)
deriving DecidableEq, Repr

/-- Reasons a step is refused: the spec gives the situation no meaning. -/
inductive Refusal where
  /-- Raised by an arm of `exec` for an instruction without a meaning (none is left). Safe. -/
  | notModelled (mnemonic : String)
  /-- Raised by a scheduled host transaction whose bytes are no operation (30_encoding.md R102, item U9). Safe. -/
  | badTransaction (reason : DecodeError)
  /-- Raised by a scheduled host transaction with bytes after its operands that are not zero padding. Safe. -/
  | trailingBytes
  /-- Raised by a scheduled host transaction that carries a micro-operation: these are not available to HOST
  (44_sequencer_microops.md R200). Safe. -/
  | microOperationFromHost
  /-- Raised by FB_WRITE_COMMIT while FB.wbusy = 0 (42_framebuffer.md R154, item U4). Safe. -/
  | commitWithoutBegin
  /-- Raised by a frame operation whose 64×64 grid does not carry 4096 pixels (item U15). Safe. -/
  | malformedGrid
  /-- Raised by a tick at a position that R102 calls unreachable. Safe. -/
  | unreachablePosition
  /-- Raised by DATA and HOLD executed at position End, where there is no plane and no row (30_encoding.md R97).
  Safe: no tick does it. -/
  | noRowAtEnd
deriving DecidableEq, Repr

/-- The complete state of the block (R20), with the parameter W_MAX, then the model's own five fields. -/
structure State where
  /-- W_MAX (R39, U13): a parameter, as LIGHT and GAMMA are; no step writes it. -/
  wMax : Nat
  /-- BUS (R21). -/
  bus : BusWord
  /-- LINES (R22). -/
  lines : Lines
  /-- SEQ (R24). -/
  seq : Position
  /-- ENG.run (R26). -/
  run : Run
  /-- STOPREQ (R27). -/
  stopreq : Bool
  /-- CFG.valid (R28). -/
  cfgValid : Bool
  /-- CFG.W, CFG.pos, CFG.D, CFG.strategy, CFG.chan_map, CFG.dwell_unit (R29). -/
  cfg : Cfg
  /-- rgb_mask .. driven_mask (R30). -/
  masks : Masks
  /-- ERR (R32). -/
  err : ErrRecord
  /-- LIGHT[0..255] (R33). -/
  light : Table
  /-- GAMMA[0..255] (R33). -/
  gamma : Table
  /-- FB.frame (R34). -/
  fbFrame : Frame
  /-- FB.gen (R34). -/
  fbGen : Nat
  /-- FB.wbusy (R28). -/
  fbBusy : Bool
  /-- PEND.frame (R35). -/
  pendFrame : Frame
  /-- PEND.gen (R35). -/
  pendGen : Nat
  /-- PEND.valid (R28). -/
  pendValid : Bool
  /-- ACT.frame (R35). -/
  actFrame : Frame
  /-- ACT.gen (R35). -/
  actGen : Nat
  /-- Model's own: the steps the agents take next, in order (R7, R39; log entry 2). -/
  schedule : List AgentStep
  /-- Model's own: host operations that are not enabled and whose issuers wait (R151, R153; log entry 4). -/
  waiting : List Instr
  /-- Model's own: the last result returned to HOST (R254; log entry 14). -/
  result : Result
  /-- Model's own: the bus trace, newest event first (R254; log entry 14). -/
  trace : List TraceEvent
  /-- Model's own: the bits the core drove when RESET took its configuration away (70_reset_and_hazards.md R309, item
  U10; log entry 18). Read by EXT's step only, and only while CFG.valid = 0. -/
  frozen : BusWord
deriving DecidableEq, Repr

/-- G0 (00_scope.md R6, decision D11): the line state at reset, at idle and at the start of every cycle. -/
def Lines.g0 : Lines := ⟨0, 0, false, true, true⟩

/-- The frame whose every pixel is p (30_encoding.md R104). -/
def Frame.uniform (p : Pixel) : Frame := ⟨List.replicate 4096 p, List.length_replicate⟩

/-- The blank frame (R34). -/
def Frame.blank : Frame := Frame.uniform ⟨0, 0, 0⟩

/-- The table with entries f 0 .. f 255. -/
def Table.ofFn (f : Nat → Byte) : Table := ⟨(List.range 256).map f, by simp⟩

/-- The machine after power-on (R40, 70_reset_and_hazards.md R300, R301). The values of BUS, SEQ, CFG, the masks,
PEND.frame and PEND.gen are not the spec's (log entries 6 and 7); LIGHT and GAMMA are free (log entry 8); W_MAX has
the value of decision D2 (log entry 15). -/
def State.reset : State where
  wMax := Config.wMax
  bus := 0
  lines := Lines.g0
  seq := .body 0 0 0 0 0
  run := .idle
  stopreq := false
  cfgValid := false
  cfg := ⟨0, ⟨0, 0, 0, 0, 0, 0, 0, 0, 0, 0, 0, 0, 0, 0⟩, 0, .timeline, ⟨.red, .green, .blue⟩, 0⟩
  masks := ⟨0, 0, 0, 0, 0, 0⟩
  err := ⟨0, 0, 0, 0⟩
  light := Table.ofFn (Config.tableEntry Config.lightSeed)
  gamma := Table.ofFn (Config.tableEntry Config.gammaSeed)
  fbFrame := Frame.blank
  fbGen := 0
  fbBusy := false
  pendFrame := Frame.blank
  pendGen := 0
  pendValid := false
  actFrame := Frame.blank
  actGen := 0
  schedule := []
  waiting := []
  result := .none
  trace := []
  frozen := 0

end Sys2Proof.Machine
end

