-- ==== Sys2Proof/Machine/Operands.lean ====
section
/-! DEFINITION. Every operand a rule computes: pixels and table entries, the lookup pipeline and the bit-slicer
(43_bcm_encoder.md R171 to R175), bit positions and the fields of a configuration (30_encoding.md R98). Nothing is
sign-extended. -/

namespace Sys2Proof.Machine

/-- Frame[x][y]: the pixel at column x, row y (20_memory.md R61). -/
def Frame.pixel (F : Frame) (x y : Fin 64) : Pixel :=
  F.pixels[y.val * 64 + x.val]'(by have := F.size; have := x.isLt; have := y.isLt; omega)

/-- Entry v of LIGHT or GAMMA (40_color_correction.md R120). -/
def Table.read (t : Table) (v : Byte) : Byte :=
  t.entries[v.toNat]'(by have := t.size; have := v.isLt; omega)

/-- One channel of a pixel (R90). -/
def pixelChannel (p : Pixel) : Channel → Byte
  | .red => p.r
  | .green => p.g
  | .blue => p.b

/-- The pixel whose channels are those of p, each looked up in t. -/
def Table.correctPixel (t : Table) (p : Pixel) : Pixel := ⟨t.read p.r, t.read p.g, t.read p.b⟩

/-- The frame whose pixels are those of F, every channel looked up in t (42_framebuffer.md R152). -/
def Table.correctFrame (t : Table) (F : Frame) : Frame :=
  ⟨F.pixels.map t.correctPixel, by rw [List.length_map]; exact F.size⟩

/-- The frame carried by a grid operand with 4096 pixels. -/
def gridFrame (g : Grid) : Option Frame :=
  if h : g.pixels.length = 4096 then some ⟨g.pixels, h⟩ else none

/-- The dimension check of 42_framebuffer.md R159: both dimensions are 64. -/
def is64 (g : Grid) : Bool := g.w == Config.frameSide && g.h == Config.frameSide

/-- Corr (R171): a channel value of the frame, corrected by LIGHT. -/
def corr (light : Table) (F : Frame) (x y : Fin 64) (ch : Channel) : Byte :=
  light.read (pixelChannel (F.pixel x y) ch)

/-- off(p) = 8 − D + p (R98): the bit of a corrected channel value that plane p shows. -/
def planeOffset (depth : Nat) (p : Fin 8) : Nat := 8 - depth + p.val

/-- Slice (R173). -/
def slice (depth : Nat) (u : Byte) (p : Fin 8) : Bool := u.getLsbD (planeOffset depth p)

/-- Row r of the upper half (R98). -/
def upperRow (r : Fin 32) : Fin 64 := ⟨r.val, by omega⟩

/-- Row r + 32: the lower-half pixel of scan row r (R98). -/
def lowerRow (r : Fin 32) : Fin 64 := ⟨r.val + 32, by omega⟩

/-- Bit k of an entry, 0 elsewhere. -/
def entryBit (b : Bool) (k : Nat) : Entry := (BitVec.ofBool b).setWidth 6 <<< k

/-- BptEntry (R175): the six RGB bit states of plane p, scan row r, column c. -/
def bptEntry (light : Table) (cfg : Cfg) (F : Frame) (p : Fin 8) (r : Fin 32) (c : Fin 64) : Entry :=
  let bitAt (y : Fin 64) (ch : Channel) : Bool := slice cfg.depth (corr light F c y ch) p
  entryBit (bitAt (upperRow r) cfg.chanMap.r) 0 ||| entryBit (bitAt (upperRow r) cfg.chanMap.g) 1 |||
  entryBit (bitAt (upperRow r) cfg.chanMap.b) 2 ||| entryBit (bitAt (lowerRow r) cfg.chanMap.r) 3 |||
  entryBit (bitAt (lowerRow r) cfg.chanMap.g) 4 ||| entryBit (bitAt (lowerRow r) cfg.chanMap.b) 5

/-- The 5-bit row address of an ADR step (R98). -/
def rowAddress (r : Fin 32) : BitVec 5 := BitVec.ofNat 5 r.val

/-- The repeat count 2^p of plane p (R98). -/
def repeats (p : Fin 8) : Nat := 2 ^ p.val

/-- DWELL(p) (45_refresh_engine.md R247): the hold ticks of a row of plane p in Direct mode. -/
def dwell (cfg : Cfg) (p : Fin 8) : Nat := cfg.dwellUnit * 2 ^ p.val

/-- chan_map is a permutation of (R, G, B) (41_pin_assignment.md R131). -/
def isPermutation (m : ChanMap) : Bool := m.r != m.g && m.g != m.b && m.r != m.b

/-- The lowest role whose position is not below the width (R132). -/
def firstOutOfRange (pins : Pins) (width : Nat) : Option (Fin 14) :=
  (List.finRange 14).find? fun i => decide (width ≤ pins.pos i)

/-- The pairs (i, j), i < j, of role indices in lexicographic order (R133). -/
def rolePairs : List (Fin 14 × Fin 14) :=
  (List.finRange 14).flatMap fun i => ((List.finRange 14).filter fun j => decide (i < j)).map fun j => (i, j)

/-- The first pair of roles at one position (R133). -/
def firstCollision (pins : Pins) : Option (Fin 14 × Fin 14) :=
  rolePairs.find? fun ij => pins.pos ij.1 == pins.pos ij.2

/-- The word with only bit k set. -/
def bitMask (k : Nat) : BusWord := 1 <<< k

/-- The OR of the positions of some roles. -/
def roleMask (pins : Pins) (roles : List (Fin 14)) : BusWord :=
  roles.foldl (fun m i => m ||| bitMask (pins.pos i)) 0

/-- The derived masks (41_pin_assignment.md R135). -/
def deriveMasks (pins : Pins) : Masks :=
  let rgb := roleMask pins [0, 1, 2, 3, 4, 5]
  let addr := roleMask pins [6, 7, 8, 9, 10]
  let clk := bitMask (pins.pos 11)
  let lat := bitMask (pins.pos 12)
  let oe := bitMask (pins.pos 13)
  { rgb := rgb, addr := addr, clk := clk, lat := lat, oe := oe, driven := rgb ||| addr ||| clk ||| lat ||| oe }

end Sys2Proof.Machine
end

