-- ==== Sys2Proof/Machine/Flags.lean ====
section
/-! DEFINITION. The one-bit flags (10_state.md R26 to R28): what each enables, and the writes of them. Every write of a
flag is named in the rule of the operation that does it. -/

namespace Sys2Proof.Machine

/-- No writer holds the frame buffer: FB_REPLACE, FB_INGEST, FB_WRITE_BEGIN and FB_SNAPSHOT have a step
(42_framebuffer.md R151 to R155). -/
def lockFree (s : State) : Bool := !s.fbBusy

/-- ENGINE has a step, and ENV may raise a fault (45_refresh_engine.md R235, R250): RUNNING or STOPPING. -/
def engineActive (s : State) : Bool := s.run == .running || s.run == .stopping

/-- The bits EXT may not change (10_state.md R21): those of driven_mask; while no configuration is held, those on which
RESET froze the lines (70_reset_and_hazards.md R309, item U10), none after power-on (item U1; log entry 18). -/
def heldBits (s : State) : BusWord := if s.cfgValid then s.masks.driven else s.frozen

/-- The 2-bit code of ENG.run in STATUS (10_state.md R31). -/
def runCode : Run → BitVec 2
  | .idle => 0
  | .running => 1
  | .stopping => 2
  | .faulted => 3

/-- STOP sets STOPREQ (R27). -/
def setStopreq (s : State) : State := { s with stopreq := true }

/-- START clears STOPREQ (R27). -/
def clearStopreq (s : State) : State := { s with stopreq := false }

/-- FB_WRITE_BEGIN takes the writer lock (R28). -/
def takeLock (s : State) : State := { s with fbBusy := true }

/-- FB_WRITE_COMMIT releases the writer lock (R28). -/
def releaseLock (s : State) : State := { s with fbBusy := false }

/-- ENG.run takes a new value (R26). -/
def setRun (run : Run) (s : State) : State := { s with run := run }

/-- The STATUS view (R31): every field a copy of state defined elsewhere. -/
def statusView (s : State) : StatusView :=
  { run := runCode s.run, cfgValid := s.cfgValid, stopreq := s.stopreq, wbusy := s.fbBusy, pend := s.pendValid,
    fbGen := s.fbGen, actGen := s.actGen }

end Sys2Proof.Machine
end

