-- ==== Sys2Proof/Machine/Sequencer.lean ====
section
/-! DEFINITION. The sequencer position (10_state.md R24): the phase decode, the linear index, and how a position
advances in each strategy (30_encoding.md R95 to R97, 45_refresh_engine.md R239, R243, R246). -/

namespace Sys2Proof.Machine

/-- Body(D−1, 0, 0, 0): the start of every cycle (R24). -/
def cycleStart (depth : Nat) : Position := .body (Fin.ofNat 8 (depth - 1)) 0 0 0 0

/-- A row start: q = 0 (45_refresh_engine.md R237). -/
def Position.isRowStart : Position → Bool
  | .body _ _ _ q _ => q == 0
  | .endCycle => false

/-- The cycle start (the h of a position outside the hold phase means nothing). -/
def Position.isCycleStart (depth : Nat) : Position → Bool
  | .body p n r q _ => p.val + 1 == depth && n == 0 && r == 0 && q == 0
  | .endCycle => false

/-- The positions that are not unreachable by 30_encoding.md R102 and 10_state.md R24: p < D; n < 2^p and q ≤ 197 in
Timeline mode; n = 0 in Direct mode. -/
def Position.legal (cfg : Cfg) : Position → Bool
  | .body p n _ q _ =>
    decide (p.val < cfg.depth) &&
      match cfg.strategy with
      | .timeline => decide (n.val < repeats p) && decide (q.val ≤ 197)
      | .direct => n == 0
  | .endCycle => true

/-- The column of a DATA, CKH or CKL step: (q − 1) div 3 (R97, R98). -/
def phaseColumn (q : Fin 199) : Fin 64 := Fin.ofNat 64 ((q.val - 1) / 3)

/-- The phase decode of 30_encoding.md R97 at a body position. -/
def phaseDecode (r : Fin 32) (q : Fin 199) (h : Nat) : Instr :=
  if q.val = 0 then .clr
  else if q.val ≤ 192 then
    match (q.val - 1) % 3 with
    | 0 => .data (phaseColumn q)
    | 1 => .ckh
    | _ => .ckl
  else
    match q.val with
    | 193 => .oed
    | 194 => .ltl
    | 195 => .lth
    | 196 => .adr r
    | 197 => .oee
    | _ => .hold h

/-- The micro-operation a position selects (R97). -/
def Position.microOp : Position → Instr
  | .body _ _ r q h => phaseDecode r q h
  | .endCycle => .endCycle

/-- L(D): the bus words of the body of a cycle (R95, 43_bcm_encoder.md R182). -/
def bodyLen (depth : Nat) : Nat := Config.scanLen * (2 ^ depth - 1)

/-- TL_LEN(D) (R182). -/
def timelineLen (depth : Nat) : Nat := bodyLen depth + 1

/-- Idx (30_encoding.md R96): the address in TL of the word of a position. -/
def Position.idx (depth : Nat) : Position → Nat
  | .body p n r q _ =>
    Config.scanLen * (2 ^ depth - 2 ^ (p.val + 1)) + Config.scanLen * n.val + Config.rowLen * r.val + q.val
  | .endCycle => bodyLen depth

/-- Next, Timeline strategy (45_refresh_engine.md R239). -/
def nextTimeline (depth : Nat) : Position → Position
  | .body p n r q _ =>
    if q.val < 197 then .body p n r (q + 1) 0
    else if r.val < 31 then .body p n (r + 1) 0 0
    else if n.val + 1 < repeats p then .body p (n + 1) 0 0 0
    else if 0 < p.val then .body (p - 1) 0 0 0 0
    else .endCycle
  | .endCycle => cycleStart depth

/-- NextRow, Direct strategy (R246). -/
def nextRow (p : Fin 8) (r : Fin 32) : Position :=
  if r.val < 31 then .body p 0 (r + 1) 0 0
  else if 0 < p.val then .body (p - 1) 0 0 0 0
  else .endCycle

/-- How a Direct-mode position with q ≤ 197 advances (R243). -/
def nextDirect (cfg : Cfg) (p : Fin 8) (r : Fin 32) (q : Fin 199) : Position :=
  if q.val < 197 then .body p 0 r (q + 1) 0
  else if 0 < dwell cfg p then .body p 0 r 198 (dwell cfg p)
  else nextRow p r

/-- The position before another one in a cycle, if there is one: the inverse of Next within a cycle (R239). -/
def Position.prev (depth : Nat) : Position → Option Position
  | .body p n r q _ =>
    if 0 < q.val then some (.body p n r (q - 1) 0)
    else if 0 < r.val then some (.body p n (r - 1) 197 0)
    else if 0 < n.val then some (.body p (n - 1) 31 197 0)
    else if p.val + 1 < depth then some (.body (p + 1) (Fin.ofNat 128 (2 ^ (p.val + 1) - 1)) 31 197 0)
    else none
  | .endCycle => some (.body 0 0 31 197 0)

end Sys2Proof.Machine
end

