-- ==== Sys2Proof/Machine/Ops.lean ====
section
/-! DEFINITION. The named operations every meaning is built from: the line word, Pack and Unpack, the masked bus write,
what each micro-operation does to the lines, raising an error and entering the fault state (the block's exceptions),
and the hand-off of frame generations. -/

namespace Sys2Proof.Machine

/-- The outcome of a meaning. -/
abbrev Answer := Host.Outcome State Fault Refusal

/-- Go on with f where o answers a next state. -/
def thenDo (o : Answer) (f : State → State) : Answer :=
  match o with
  | .next s => .next (f s)
  | .fault r => .fault r
  | .refused r => .refused r

/-! ## Lines, Pack, BusWrite -/

/-- LW(L) (30_encoding.md R92): bit i is the line of role i. -/
def Lines.word (L : Lines) : LineWord :=
  L.rgb.setWidth 14 ||| (L.addr.setWidth 14 <<< 6) ||| ((BitVec.ofBool L.clk).setWidth 14 <<< 11) |||
    ((BitVec.ofBool L.lat).setWidth 14 <<< 12) ||| ((BitVec.ofBool L.oe).setWidth 14 <<< 13)

/-- The line state of a line word (R92). -/
def Lines.ofWord (w : LineWord) : Lines :=
  { rgb := w.extractLsb' 0 6, addr := w.extractLsb' 6 5, clk := w.getLsbD 11, lat := w.getLsbD 12, oe := w.getLsbD 13 }

/-- Pack (30_encoding.md R94): bit i of LW goes to bit position pos[i]; every other bit is 0. -/
def pack (pins : Pins) (L : Lines) : BusWord :=
  (List.finRange 14).foldl
    (fun w i => w ||| if L.word.getLsbD i.val then bitMask (pins.pos i) else 0) 0

/-- Unpack (R94): bit i of LW is bit pos[i] of the bus word. -/
def unpack (pins : Pins) (w : BusWord) : Lines :=
  Lines.ofWord ((List.finRange 14).foldl
    (fun v i => v ||| ((BitVec.ofBool (w.testBit (pins.pos i))).setWidth 14 <<< i.val)) 0)

/-- The masked write of one register value (45_refresh_engine.md R232). -/
def maskedWrite (old word driven : BusWord) : BusWord := withoutBits old driven ||| (word &&& driven)

/-- Put a line state on the bus: LINES takes it, BUS takes its packed word in the driven bits, and the write is one
event of the bus trace (R232, R200, R254). -/
def drive (L : Lines) (s : State) : State :=
  { s with
    lines := L
    bus := maskedWrite s.bus (pack s.cfg.pins L) s.masks.driven
    trace := .write L.word :: s.trace }

/-- `drive`, where the pin map and the masks may be read: they are unspecified while CFG.valid = 0 (10_state.md R29,
R30, R40). -/
def driveLines (L : Lines) (s : State) : Answer :=
  if s.cfgValid then .next (drive L s) else .fault (.unspecifiedRead .masks)

/-- What an operation does at the position SEQ holds, where SEQ may be read: it is unspecified while CFG.valid = 0
(10_state.md R40, item U2; log entry 20). -/
def atPosition (s : State) (f : Position → Answer) : Answer :=
  if s.cfgValid then f s.seq else .fault (.unspecifiedRead .position)

/-! ## What the micro-operations do to the lines (44_sequencer_microops.md R201 to R211) -/

/-- R201. -/
def Lines.clr (L : Lines) : Lines := { L with rgb := 0 }
/-- R202: all six bits at once. -/
def Lines.data (e : Entry) (L : Lines) : Lines := { L with rgb := e }
/-- R203. -/
def Lines.ckh (L : Lines) : Lines := { L with clk := true }
/-- R204. -/
def Lines.ckl (L : Lines) : Lines := { L with clk := false }
/-- R205. -/
def Lines.oed (L : Lines) : Lines := { L with oe := true }
/-- R206. -/
def Lines.ltl (L : Lines) : Lines := { L with lat := false }
/-- R207. -/
def Lines.lth (L : Lines) : Lines := { L with lat := true }
/-- R208: all five bits in one word. -/
def Lines.adr (r : Fin 32) (L : Lines) : Lines := { L with addr := rowAddress r }
/-- R209. -/
def Lines.oee (L : Lines) : Lines := { L with oe := false }
/-- R210: the same function as OED. -/
def Lines.endCycle (L : Lines) : Lines := { L with oe := true }

/-! ## Errors and faults (60_exceptions.md R270 to R278) -/

/-- The errors of R271, R272 and R273 with what they record. -/
inductive BlockError where
  | outOfRange (role position : Nat)
  | collision (i j : Nat)
  | widthRange (width : Nat)
  | depthRange (depth : Nat)
  | badChanMap
  | alreadyConfigured
  | notConfigured
  | badDimensions (w h : Nat)
  | engineFault (cause : Nat)
deriving DecidableEq, Repr

/-- The error record (class, cause, a, b) (R270 to R273). -/
def BlockError.record : BlockError → ErrRecord
  | .outOfRange i p => ⟨1, 1, i, p⟩
  | .collision i j => ⟨1, 2, i, j⟩
  | .widthRange w => ⟨1, 3, w, 0⟩
  | .depthRange d => ⟨1, 4, d, 0⟩
  | .badChanMap => ⟨1, 5, 0, 0⟩
  | .alreadyConfigured => ⟨1, 6, 0, 0⟩
  | .notConfigured => ⟨1, 7, 0, 0⟩
  | .badDimensions w h => ⟨2, 1, w, h⟩
  | .engineFault c => ⟨3, c, 0, 0⟩

/-- Taking an exception in a host operation (R276): the error is returned to the issuer, ERR takes it unless the fault
record is held (R278), and nothing else changes. There is no handler and no return: HOST decides what to do (R277). -/
def raise (e : BlockError) (s : State) : State :=
  { s with
    err := if s.run = .faulted then s.err else e.record
    result := .error e.record }

/-- The operation's issuer gets a result. -/
def respond (r : Result) (s : State) : State := { s with result := r }

/-- The engine fault (45_refresh_engine.md R250): force the output-disabled word, enter FAULTED, record ERR. The only
way back is RESET (R277). -/
def faultEntry (cause : Nat) (s : State) : Answer :=
  thenDo (driveLines s.lines.oed s) fun t => { t with run := .faulted, err := (BlockError.engineFault cause).record }

/-! ## Frame generations (42_framebuffer.md R151 to R160, 45_refresh_engine.md R238, R244) -/

/-- An operation that is not enabled has no step; its issuer waits (R151, R153; log entry 4). -/
def waitForLock (i : Instr) (s : State) : State := { s with waiting := s.waiting ++ [i] }

/-- Publish (R160). It reads CFG.strategy, which is unspecified while CFG.valid = 0. -/
def publish (s : State) : Answer :=
  if s.cfgValid then
    match s.cfg.strategy with
    | .timeline => .next { s with pendFrame := s.fbFrame, pendGen := s.fbGen, pendValid := true }
    | .direct => .next s
  else .fault (.unspecifiedRead .configuration)

/-- A successful replacement (R151): the whole frame, the next generation number, Publish. -/
def installFrame (F : Frame) (s : State) : Answer :=
  thenDo (publish { s with fbFrame := F, fbGen := s.fbGen + 1 }) (respond .ok)

/-- The part FB_REPLACE, FB_INGEST and FB_WRITE_COMMIT share: the dimension check, before any pixel is read (R159),
then the replacement by the grid's pixels after `f`. -/
def replaceFrame (g : Grid) (f : Frame → Frame) (s : State) : Answer :=
  if is64 g then
    match gridFrame g with
    | some F => installFrame (f F) s
    | none => .refused .malformedGrid
  else .next (raise (.badDimensions g.w g.h) s)

/-- Adopt (45_refresh_engine.md R238): the Timeline swap. -/
def adopt (s : State) : State :=
  if s.pendValid then { s with actFrame := s.pendFrame, actGen := s.pendGen, pendValid := false } else s

/-- Acquire (R244): the Direct-mode snapshot; while a writer holds the lock the stale one is kept. -/
def acquire (s : State) : State :=
  if s.fbBusy then s else { s with actFrame := s.fbFrame, actGen := s.fbGen }

/-! ## The shared register -/

/-- A step of EXT (00_scope.md R7): the bits below W_MAX that are not held take those of `word`, the others stay
(10_state.md R21, items U1 and U10; log entry 18). -/
def extWrite (word : BusWord) (s : State) : State :=
  { s with bus := maskedWrite (word % 2 ^ s.wMax) s.bus (heldBits s) }

/-! ## Configuration -/

/-- The first failing check of CONFIGURE, in the order of 41_pin_assignment.md R131. -/
def configureError (s : State) (pins : Pins) (width depth : Nat) (chanMap : ChanMap) : Option BlockError :=
  if s.cfgValid then some .alreadyConfigured
  else if s.wMax < width then some (.widthRange width)
  else
    match firstOutOfRange pins width with
    | some i => some (.outOfRange i.val (pins.pos i))
    | none =>
      match firstCollision pins with
      | some (i, j) => some (.collision i.val j.val)
      | none =>
        if depth < Config.depthMin ∨ Config.depthMax < depth then some (.depthRange depth)
        else if isPermutation chanMap then none
        else some .badChanMap

/-- The effect of an accepted CONFIGURE (R131): the registers, the masks, CFG.valid, then LINES <- G0 and the block's
first bus write. -/
def acceptCfg (cfg : Cfg) (s : State) : State :=
  drive Lines.g0 { s with cfg := cfg, masks := deriveMasks cfg.pins, cfgValid := true }

end Sys2Proof.Machine
end

