-- ==== Sys2Proof/Machine/ColorCorrection.lean ====
section
/-! DEFINITION. Family 40: the two lookup functions (40_color_correction.md). -/

namespace Sys2Proof.Machine

/-- LIGHTNESS_CORRECT v (R121): the entry of LIGHT. -/
def execLightnessCorrect (v : Byte) (s : State) : Answer := .next (respond (.value (s.light.read v)) s)

/-- GAMMA_CORRECT v (R123): the entry of GAMMA. -/
def execGammaCorrect (v : Byte) (s : State) : Answer := .next (respond (.value (s.gamma.read v)) s)

end Sys2Proof.Machine
end

