-- ==== Sys2Proof/Machine/Engine.lean ====
section
/-! DEFINITION. Family 45: the host operations that control the engine (45_refresh_engine.md R233, R234, R251, R252). -/

namespace Sys2Proof.Machine

/-- START (R233). -/
def execStart (s : State) : Answer :=
  if s.cfgValid then
    match s.run with
    | .faulted => .next (respond (.error s.err) s)
    | .idle => .next (respond .ok (setRun .running { clearStopreq s with seq := cycleStart s.cfg.depth }))
    | .running => .next (respond .ok s)
    | .stopping => .next (respond .ok s)
  else .next (raise .notConfigured s)

/-- STOP (R234). -/
def execStop (s : State) : Answer := .next (respond .ok (setStopreq s))

/-- STATUS (R251): the view and ERR as they are at this step. -/
def execStatus (s : State) : Answer := .next (respond (.status (statusView s) s.err) s)

/-- RESET (R252, R300): every element takes its reset value; BUS is not written, W_MAX, LIGHT and GAMMA are parameters
(R39, R40); the schedule, the waiting issuers and the trace are no state of the block (log entry 22). The lines are
frozen at the word last written until a new CONFIGURE, after a RESET in any state (DEDUCED, log entry 18; R309 and item
U10 of 70_reset_and_hazards.md and 93_implementation_defined.md speak of one while RUNNING). -/
def execReset (s : State) : Answer :=
  .next { State.reset with
    wMax := s.wMax, bus := s.bus, frozen := heldBits s, light := s.light, gamma := s.gamma,
    schedule := s.schedule, waiting := s.waiting, trace := s.trace, result := .ok }

end Sys2Proof.Machine
end

