-- ==== Sys2Proof/Machine/FrameBuffer.lean ====
section
/-! DEFINITION. Family 42: the frame operations (42_framebuffer.md). An operation that is enabled only while
FB.wbusy = 0 has no step while a writer holds the buffer: its issuer waits. -/

namespace Sys2Proof.Machine

/-- An operation enabled only while FB.wbusy = 0 (R151). -/
def whenLockFree (i : Instr) (s : State) (f : State → Answer) : Answer :=
  if lockFree s then f s else .next (waitForLock i s)

/-- An operation that is rejected before configuration (60_exceptions.md R271, NOT_CONFIGURED). -/
def whenConfigured (s : State) (f : State → Answer) : Answer :=
  if s.cfgValid then f s else .next (raise .notConfigured s)

/-- FB_REPLACE (R151). -/
def execFbReplace (g : Grid) (s : State) : Answer :=
  whenLockFree (.fbReplace g) s fun s => whenConfigured s fun s => replaceFrame g (fun F => F) s

/-- FB_INGEST (R152): every channel of every pixel goes through GAMMA. -/
def execFbIngest (g : Grid) (s : State) : Answer :=
  whenLockFree (.fbIngest g) s fun s => whenConfigured s fun s => replaceFrame g s.gamma.correctFrame s

/-- FB_WRITE_BEGIN (R153). -/
def execFbWriteBegin (s : State) : Answer :=
  whenLockFree .fbWriteBegin s fun s => whenConfigured s fun s => .next (respond .ok (takeLock s))

/-- FB_WRITE_COMMIT (R154): the lock is released on every path. -/
def execFbWriteCommit (g : Grid) (s : State) : Answer :=
  if s.fbBusy then replaceFrame g (fun F => F) (releaseLock s) else .refused .commitWithoutBegin

/-- FB_SNAPSHOT (R155). -/
def execFbSnapshot (s : State) : Answer :=
  whenLockFree .fbSnapshot s fun s => .next (respond (.snapshot s.fbFrame s.fbGen) s)

end Sys2Proof.Machine
end

