-- ==== Sys2Proof/Machine/Encoder.lean ====
section
/-! DEFINITION. The BCM encoder (43_bcm_encoder.md): the program of a cycle as the expansion tree of R178, the Timeline
generated from it (R180), and the closed form of its line states (R181) that the engine's tick uses so that one word
is computed on demand (10_state.md R37; log entries 9 and 10). -/

namespace Sys2Proof.Machine

/-- One element of the program: the micro-operation, with the plane and the row a DATA step reads (R178). -/
structure ProgramStep where
  plane : Fin 8
  row : Fin 32
  op : Instr
deriving DecidableEq, Repr

/-- COL(p, r, c) (R178). -/
def colSteps (p : Fin 8) (r : Fin 32) (c : Fin 64) : List ProgramStep := [⟨p, r, .data c⟩, ⟨p, r, .ckh⟩, ⟨p, r, .ckl⟩]

/-- WINDOW(r) (R178). -/
def windowSteps (p : Fin 8) (r : Fin 32) : List ProgramStep :=
  [⟨p, r, .oed⟩, ⟨p, r, .ltl⟩, ⟨p, r, .lth⟩, ⟨p, r, .adr r⟩, ⟨p, r, .oee⟩]

/-- ROW(p, r) (R178). -/
def rowSteps (p : Fin 8) (r : Fin 32) : List ProgramStep :=
  ⟨p, r, .clr⟩ :: (List.finRange 64).flatMap (colSteps p r) ++ windowSteps p r

/-- SCAN(p) (R178). -/
def scanSteps (p : Fin 8) : List ProgramStep := (List.finRange 32).flatMap (rowSteps p)

/-- PLANE(p): SCAN(p) repeated 2^p times (R178). -/
def planeSteps (p : Fin 8) : List ProgramStep := (List.replicate (repeats p) (scanSteps p)).flatten

/-- PLANE(D−1) ++ .. ++ PLANE(0). -/
def planesDown : Nat → List ProgramStep
  | 0 => []
  | d + 1 => planeSteps (Fin.ofNat 8 d) ++ planesDown d

/-- CYCLE(D) (R178). The plane and row of END are not read. -/
def cycleProgram (depth : Nat) : List ProgramStep := planesDown depth ++ [⟨0, 31, .endCycle⟩]

/-- Apply(mop, L) (44_sequencer_microops.md R200), with the entries `e` of the plane and row that DATA reads. A host
operation is no micro-operation and leaves the lines alone. -/
def apply (e : Fin 64 → Entry) (op : Instr) (L : Lines) : Lines :=
  match op with
  | .clr => L.clr
  | .data c => L.data (e c)
  | .ckh => L.ckh
  | .ckl => L.ckl
  | .oed => L.oed
  | .ltl => L.ltl
  | .lth => L.lth
  | .adr r => L.adr r
  | .oee => L.oee
  | .endCycle => L.endCycle
  | .idle => Lines.g0
  | .hold _ => L
  | .configure _ _ _ _ _ _ => L
  | .fbReplace _ => L
  | .fbIngest _ => L
  | .fbWriteBegin => L
  | .fbWriteCommit _ => L
  | .fbSnapshot => L
  | .start => L
  | .stop => L
  | .status => L
  | .reset => L
  | .lightnessCorrect _ => L
  | .gammaCorrect _ => L

/-- L[0], L[1], .. of R180 for a program that starts in line state L. -/
def lineStates (light : Table) (cfg : Cfg) (F : Frame) : List ProgramStep → Lines → List Lines
  | [], _ => []
  | st :: rest, L =>
    let L' := apply (bptEntry light cfg F st.plane st.row) st.op L
    L' :: lineStates light cfg F rest L'

/-- TL(F) (R180): the packed line states of CYCLE(D), generated from G0. -/
def timeline (light : Table) (cfg : Cfg) (F : Frame) : List BusWord :=
  (lineStates light cfg F (cycleProgram cfg.depth) Lines.g0).map (pack cfg.pins)

/-- The line state the Timeline holds at a position, in the closed form of R181 (for q = 198, which no Timeline holds,
it is that of q = 197). -/
def lineAt (light : Table) (cfg : Cfg) (F : Frame) : Position → Lines
  | .body p n r q _ =>
    let first : Bool := p.val + 1 == cfg.depth && n == 0 && r == 0
    { rgb :=
        if q.val = 0 then 0
        else if q.val ≤ 192 then bptEntry light cfg F p r (phaseColumn q)
        else bptEntry light cfg F p r 63
      clk := decide (1 ≤ q.val ∧ q.val ≤ 192 ∧ (q.val - 1) % 3 = 1)
      lat := q.val != 194
      addr := if 196 ≤ q.val then rowAddress r else if first then 0 else rowAddress (r - 1)
      oe := if 193 ≤ q.val then decide (q.val ≤ 196) else first }
  | .endCycle =>
    { rgb := bptEntry light cfg F 0 31 63, clk := false, lat := true, addr := 31, oe := true }

/-- L[i−1] of R180: the line state the Timeline holds before a position; G0 before the cycle start. -/
def lineBefore (light : Table) (cfg : Cfg) (F : Frame) (pos : Position) : Lines :=
  match pos.prev cfg.depth with
  | some before => lineAt light cfg F before
  | none => Lines.g0

end Sys2Proof.Machine
end

