-- ==== Sys2Proof/Machine/MicroOps.lean ====
section
/-! DEFINITION. Family 44: the sequencer micro-operations (44_sequencer_microops.md). Each but HOLD does
LINES <- Apply(mop, LINES) and then one BusWrite(Pack(LINES)) (R200). How SEQ advances after one is the tick's
(Machine/Tick.lean; log entry 26), but for HOLD, whose own rule moves it (R212). -/

namespace Sys2Proof.Machine

/-- CLR (R201). -/
def execClr (s : State) : Answer := driveLines s.lines.clr s

/-- DATA(c) (R202): the entry of the plane and row of the position, in the generation being played. -/
def execData (c : Fin 64) (s : State) : Answer :=
  atPosition s fun
    | .body p _ r _ _ => driveLines (s.lines.data (bptEntry s.light s.cfg s.actFrame p r c)) s
    | .endCycle => .refused .noRowAtEnd

/-- CKH (R203). -/
def execCkh (s : State) : Answer := driveLines s.lines.ckh s

/-- CKL (R204). -/
def execCkl (s : State) : Answer := driveLines s.lines.ckl s

/-- OED (R205). -/
def execOed (s : State) : Answer := driveLines s.lines.oed s

/-- LTL (R206). -/
def execLtl (s : State) : Answer := driveLines s.lines.ltl s

/-- LTH (R207). -/
def execLth (s : State) : Answer := driveLines s.lines.lth s

/-- ADR(r) (R208). -/
def execAdr (r : Fin 32) (s : State) : Answer := driveLines (s.lines.adr r) s

/-- OEE (R209). -/
def execOee (s : State) : Answer := driveLines s.lines.oee s

/-- END (R210). -/
def execEndCycle (s : State) : Answer := driveLines s.lines.endCycle s

/-- IDLE (R211). -/
def execIdle (s : State) : Answer := driveLines Lines.g0 s

/-- HOLD(h) (R212, 45_refresh_engine.md R243): no line and no bus write; one tick of the hold goes by. -/
def execHold (h : Nat) (s : State) : Answer :=
  atPosition s fun
    | .body p n r _ _ =>
      .next { s with
        seq := if 1 < h then .body p n r 198 (h - 1) else nextRow p r
        trace := .hold :: s.trace }
    | .endCycle => .refused .noRowAtEnd

end Sys2Proof.Machine
end

