-- ==== Sys2Proof/Machine/PinAssignment.lean ====
section
/-! DEFINITION. Family 41: CONFIGURE (41_pin_assignment.md R131 to R138). -/

namespace Sys2Proof.Machine

/-- CONFIGURE (R131): the first failing check is raised; otherwise the whole configuration is accepted. -/
def execConfigure (pins : Pins) (width depth : Nat) (strategy : Strategy) (chanMap : ChanMap) (dwellUnit : Nat)
    (s : State) : Answer :=
  match configureError s pins width depth chanMap with
  | some e => .next (raise e s)
  | none =>
    .next (respond .ok (acceptCfg
      { width := width, pins := pins, depth := depth, strategy := strategy, chanMap := chanMap, dwellUnit := dwellUnit }
      s))

end Sys2Proof.Machine
end

