-- ==== Sys2Proof/Machine/Dispatch.lean ====
section
/-! DEFINITION. One arm for each operation of spec/opcode_table.json. -/

namespace Sys2Proof.Machine

def exec (i : Instr) (s : State) : Host.Outcome State Fault Refusal :=
  match i with
  | .configure pins width depth strategy chanMap dwellUnit => Sys2Proof.Machine.execConfigure pins width depth strategy chanMap dwellUnit s
  | .fbReplace grid => Sys2Proof.Machine.execFbReplace grid s
  | .fbIngest grid => Sys2Proof.Machine.execFbIngest grid s
  | .fbWriteBegin => Sys2Proof.Machine.execFbWriteBegin s
  | .fbWriteCommit grid => Sys2Proof.Machine.execFbWriteCommit grid s
  | .fbSnapshot => Sys2Proof.Machine.execFbSnapshot s
  | .start => Sys2Proof.Machine.execStart s
  | .stop => Sys2Proof.Machine.execStop s
  | .status => Sys2Proof.Machine.execStatus s
  | .reset => Sys2Proof.Machine.execReset s
  | .lightnessCorrect v => Sys2Proof.Machine.execLightnessCorrect v s
  | .gammaCorrect v => Sys2Proof.Machine.execGammaCorrect v s
  | .clr => Sys2Proof.Machine.execClr s
  | .data c => Sys2Proof.Machine.execData c s
  | .ckh => Sys2Proof.Machine.execCkh s
  | .ckl => Sys2Proof.Machine.execCkl s
  | .oed => Sys2Proof.Machine.execOed s
  | .ltl => Sys2Proof.Machine.execLtl s
  | .lth => Sys2Proof.Machine.execLth s
  | .adr r => Sys2Proof.Machine.execAdr r s
  | .oee => Sys2Proof.Machine.execOee s
  | .endCycle => Sys2Proof.Machine.execEndCycle s
  | .idle => Sys2Proof.Machine.execIdle s
  | .hold h => Sys2Proof.Machine.execHold h s

end Sys2Proof.Machine
end

