-- ==== Sys2Proof/Machine/Tick.lean ====
section
/-! DEFINITION. The steps of the agents around `exec` (00_scope.md R7): the engine's tick (45_refresh_engine.md R235,
R236, R243), a host transaction, EXT, ENV, and what happens where nothing is scheduled. -/

namespace Sys2Proof.Machine

/-- TickTimeline (R236): adopt at the cycle start; execute the micro-operation of the position on the line state the
Timeline holds before it, which drives the Timeline's own word (R180; log entry 10); advance. -/
def tickTimeline (s : State) : Answer :=
  let s1 := if s.seq.isCycleStart s.cfg.depth then adopt s else s
  let s2 := { s1 with lines := lineBefore s1.light s1.cfg s1.actFrame s1.seq }
  thenDo (exec s2.seq.microOp s2) fun t => { t with seq := nextTimeline t.cfg.depth t.seq }

/-- TickDirect (R243). -/
def tickDirect (s : State) : Answer :=
  match s.seq with
  | .endCycle => thenDo (exec .endCycle s) fun t => { t with seq := cycleStart t.cfg.depth }
  | .body p n r q h =>
    if q.val = 198 then exec (.hold h) s
    else
      let s1 := if q.val = 0 then acquire s else s
      let s2 := if (Position.body p n r q h).isCycleStart s.cfg.depth then { s1 with lines := Lines.g0 } else s1
      thenDo (exec (Position.body p n r q h).microOp s2) fun t => { t with seq := nextDirect t.cfg p r q }

/-- The tick of a RUNNING engine (R235): the stop check at a row start (R237), then the strategy's tick. It reads SEQ
and CFG, which are unspecified while CFG.valid = 0 (10_state.md R40). -/
def tickRunning (s : State) : Answer :=
  if s.cfgValid then
    if s.seq.isRowStart && s.stopreq then thenDo (exec .oed s) (setRun .stopping)
    else if s.seq.legal s.cfg then
      match s.cfg.strategy with
      | .timeline => tickTimeline s
      | .direct => tickDirect s
    else .refused .unreachablePosition
  else .fault (.unspecifiedRead .position)

/-- The tick (R235). In IDLE and FAULTED the engine has no step: nothing changes (R230; log entry 5). -/
def tick (s : State) : Answer :=
  match s.run with
  | .idle => .next s
  | .running => tickRunning s
  | .stopping => thenDo (exec .idle s) (setRun .idle)
  | .faulted => .next s

/-- A host transaction: decode its bytes and execute the operation. The transport may pad a transaction with zero
bytes (log entry 1); micro-operations are not available to HOST (44_sequencer_microops.md R200). -/
def hostStep (bytes : List Byte) (s : State) : Answer :=
  match decode bytes with
  | .error e => .refused (.badTransaction e)
  | .ok (i, rest) =>
    if rest.all (fun b => b == 0) then
      if i.isMicro then .refused .microOperationFromHost else exec i s
    else .refused .trailingBytes

/-- A waiting issuer tries again: its operation runs if the lock is free, and waits on otherwise (log entry 4). -/
def resumeStep (k : Nat) (s : State) : Answer :=
  match s.waiting[k]? with
  | none => .next s
  | some i => if lockFree s then exec i { s with waiting := s.waiting.eraseIdx k } else .next s

/-- ENV's fault event, enabled while the engine is RUNNING or STOPPING (45_refresh_engine.md R250; log entry 5). -/
def envStep (cause : Nat) (s : State) : Answer := if engineActive s then faultEntry cause s else .next s

/-- One step of one agent (00_scope.md R7). -/
def agentStep (a : AgentStep) (s : State) : Answer :=
  match a with
  | .host bytes => hostStep bytes s
  | .resume k => resumeStep k s
  | .tick => tick s
  | .ext word => .next (extWrite word s)
  | .envFault cause => envStep cause s

/-- Nothing is scheduled: a waiting operation that is enabled runs, else the engine ticks (70_reset_and_hazards.md
R314; log entry 3). -/
def unscheduledStep (s : State) : Answer :=
  match s.waiting with
  | [] => tick s
  | _ :: _ => if lockFree s then resumeStep 0 s else tick s

/-- One step: the next scheduled agent's. -/
def nextStep (s : State) : Answer :=
  match s.schedule with
  | [] => unscheduledStep s
  | a :: rest => agentStep a { s with schedule := rest }

/-! ## Placing one instruction where the next step runs it (log entry 11) -/

/-- The configuration used to place a micro-operation in a state that has none: role i at bit i, W = 32, D = 5. -/
def placingCfg : Cfg :=
  { width := 32, pins := ⟨0, 1, 2, 3, 4, 5, 6, 7, 8, 9, 10, 11, 12, 13⟩, depth := 5, strategy := .timeline,
    chanMap := ⟨.red, .green, .blue⟩, dwellUnit := 0 }

/-- A state whose engine runs and stands at a position. -/
def placeAt (pos : Position) (s : State) : State :=
  { s with
    cfg := if s.cfgValid then s.cfg else placingCfg
    masks := if s.cfgValid then s.masks else deriveMasks placingCfg.pins
    cfgValid := true
    run := .running
    stopreq := false
    seq := pos
    schedule := .tick :: s.schedule }

/-- The state whose next tick executes a micro-operation; a host operation is scheduled as a transaction. The
positions are those of the phase decode (30_encoding.md R97). -/
def placeInstr (i : Instr) (bytes : List Byte) (s : State) : State :=
  match i with
  | .clr => placeAt (.body 0 0 0 0 0) s
  | .data c => placeAt (.body 0 0 0 (Fin.ofNat 199 (1 + 3 * c.val)) 0) s
  | .ckh => placeAt (.body 0 0 0 2 0) s
  | .ckl => placeAt (.body 0 0 0 3 0) s
  | .oed => placeAt (.body 0 0 0 193 0) s
  | .ltl => placeAt (.body 0 0 0 194 0) s
  | .lth => placeAt (.body 0 0 0 195 0) s
  | .adr r => placeAt (.body 0 0 r 196 0) s
  | .oee => placeAt (.body 0 0 0 197 0) s
  | .endCycle => placeAt .endCycle s
  | .idle => setRun .stopping (placeAt .endCycle s)
  | .hold h =>
    let t := placeAt (.body 0 0 0 198 h) s
    { t with cfg := { t.cfg with strategy := .direct } }
  | .configure _ _ _ _ _ _ => { s with schedule := .host bytes :: s.schedule }
  | .fbReplace _ => { s with schedule := .host bytes :: s.schedule }
  | .fbIngest _ => { s with schedule := .host bytes :: s.schedule }
  | .fbWriteBegin => { s with schedule := .host bytes :: s.schedule }
  | .fbWriteCommit _ => { s with schedule := .host bytes :: s.schedule }
  | .fbSnapshot => { s with schedule := .host bytes :: s.schedule }
  | .start => { s with schedule := .host bytes :: s.schedule }
  | .stop => { s with schedule := .host bytes :: s.schedule }
  | .status => { s with schedule := .host bytes :: s.schedule }
  | .reset => { s with schedule := .host bytes :: s.schedule }
  | .lightnessCorrect _ => { s with schedule := .host bytes :: s.schedule }
  | .gammaCorrect _ => { s with schedule := .host bytes :: s.schedule }

/-- A table word placed where the next step runs it; a word that is no operation is scheduled as a transaction. -/
def placeWord (nbits w : Nat) (s : State) : State :=
  match decodeTableWord nbits w with
  | some i => placeInstr i (tableBytes nbits w) s
  | none => { s with schedule := .host (tableBytes nbits w) :: s.schedule }

end Sys2Proof.Machine
end

