-- ==== Sys2Proof/Machine/Step.lean ====
section
/-! DEFINITION. One step of the machine, and the placing of an instruction where the next step runs it. -/

namespace Sys2Proof.Machine

/-- One atomic step of one agent (00_scope.md R7): the next scheduled one; with nothing scheduled, an enabled waiting
operation or the engine's tick. -/
def step (s : State) : Host.Outcome State Fault Refusal := nextStep s

/-- s with the instruction of a table word placed so that the very next step runs it (log entry 11). -/
def State.withFetchWord (s : State) (nbits w : Nat) : State := placeWord nbits w s

end Sys2Proof.Machine
end

