-- ==== Sys2Proof/Safety.lean ====
section
/-! DEFINITION. The terms the claims use: legal configurations, admissible tables, what the bus shows, and the
invariant of the machine. -/

namespace Sys2Proof.Machine

/-- The state invariant of 41_pin_assignment.md R134 on the pins: every position below the width, all distinct. -/
def LegalPins (pins : Pins) (width : Nat) : Prop :=
  (∀ i : Fin 14, pins.pos i < width) ∧ ∀ i j : Fin 14, i ≠ j → pins.pos i ≠ pins.pos j

/-- A configuration that CONFIGURE accepts where the output register has W_MAX bits (10_state.md R29,
41_pin_assignment.md R131). -/
def LegalCfg (wMax : Nat) (cfg : Cfg) : Prop :=
  cfg.width ≤ wMax ∧ LegalPins cfg.pins cfg.width ∧ 5 ≤ cfg.depth ∧ cfg.depth ≤ 8 ∧
    cfg.chanMap.r ≠ cfg.chanMap.g ∧ cfg.chanMap.g ≠ cfg.chanMap.b ∧ cfg.chanMap.r ≠ cfg.chanMap.b

/-- The block holds a legal configuration and its masks are the ones derived from it (R134, R135). -/
def Configured (s : State) : Prop :=
  s.cfgValid = true ∧ LegalCfg s.wMax s.cfg ∧ s.masks = deriveMasks s.cfg.pins

/-- The constraints of 40_color_correction.md R121 and R123 on a table. -/
def Admissible (t : Table) : Prop :=
  t.read 0 = 0 ∧ t.read 255 = 255 ∧ ∀ a b : Byte, a.toNat ≤ b.toNat → (t.read a).toNat ≤ (t.read b).toNat

/-- The value that the D slices of a corrected channel value make, slice p weighted 2^p (43_bcm_encoder.md R173, R177). -/
def slicedValue (depth : Nat) (u : Byte) : Nat :=
  ((List.finRange 8).map fun p => if p.val < depth then (slice depth u p).toNat * 2 ^ p.val else 0).sum

/-- The line of role i (30_encoding.md R92, 41_pin_assignment.md R130): R1 G1 B1 R2 G2 B2, A to E, CLK, LAT, OE. -/
def roleLine (L : Lines) : Fin 14 → Bool
  | 0 => L.rgb.getLsbD 0
  | 1 => L.rgb.getLsbD 1
  | 2 => L.rgb.getLsbD 2
  | 3 => L.rgb.getLsbD 3
  | 4 => L.rgb.getLsbD 4
  | 5 => L.rgb.getLsbD 5
  | 6 => L.addr.getLsbD 0
  | 7 => L.addr.getLsbD 1
  | 8 => L.addr.getLsbD 2
  | 9 => L.addr.getLsbD 3
  | 10 => L.addr.getLsbD 4
  | 11 => L.clk
  | 12 => L.lat
  | 13 => L.oe

/-- `new` shows line state L on the 14 positions and keeps every other bit of `old` (45_refresh_engine.md R232,
30_encoding.md R94). -/
def BusShows (pins : Pins) (old : BusWord) (L : Lines) (new : BusWord) : Prop :=
  (∀ i : Fin 14, new.testBit (pins.pos i) = roleLine L i) ∧
    ∀ k : Nat, (∀ i : Fin 14, pins.pos i ≠ k) → new.testBit k = old.testBit k

/-- t is s after one bus write of line state L and nothing else (44_sequencer_microops.md R200). -/
def DrivenTo (s : State) (L : Lines) (t : State) : Prop :=
  ∃ b : BusWord, BusShows s.cfg.pins s.bus L b ∧
    t = { s with lines := L, bus := b, trace := .write L.word :: s.trace }

/-- s after a host operation that was rejected with error record e (60_exceptions.md R276, R278): ERR takes the record
unless the engine is FAULTED, the issuer gets it, and nothing else changes. -/
def rejectedWith (e : ErrRecord) (s : State) : State :=
  { s with err := if s.run = .faulted then s.err else e, result := .error e }

/-- The operations that are enabled only while FB.wbusy = 0 (42_framebuffer.md R151, R152, R153, R155). -/
def waitsForLock : Instr → Bool
  | .configure _ _ _ _ _ _ => false
  | .fbReplace _ => true
  | .fbIngest _ => true
  | .fbWriteBegin => true
  | .fbWriteCommit _ => false
  | .fbSnapshot => true
  | .start => false
  | .stop => false
  | .status => false
  | .reset => false
  | .lightnessCorrect _ => false
  | .gammaCorrect _ => false
  | .clr => false
  | .data _ => false
  | .ckh => false
  | .ckl => false
  | .oed => false
  | .ltl => false
  | .lth => false
  | .adr _ => false
  | .oee => false
  | .endCycle => false
  | .idle => false
  | .hold _ => false

/-- The next step is HOST's RESET: a scheduled transaction whose bytes are RESET and zero padding (45_refresh_engine.md
R252; byte form and schedule: log entries 1 and 2). -/
def ResetScheduled (s : State) : Prop :=
  ∃ (bytes rest : List Byte) (later : List AgentStep), s.schedule = .host bytes :: later ∧
    decode bytes = .ok (.reset, rest) ∧ ∀ b ∈ rest, b = 0

/-- The next step is a RESET that waits for the lock. RESET never waits (`waitsForLock`), so no state of the invariant
has one. -/
def ResetResumed (s : State) : Prop :=
  (∃ (k : Nat) (later : List AgentStep), s.schedule = .resume k :: later ∧ s.waiting[k]? = some .reset) ∨
    (s.schedule = [] ∧ s.waiting[0]? = some .reset)

/-- The engine stands at the cycle start. -/
def atCycleStart (s : State) : Prop := s.seq.isCycleStart s.cfg.depth = true

/-- The line state of a running engine: at the cycle start, output disabled and no pulse open; elsewhere, the line
state that the program of ACT.frame holds just before the position (43_bcm_encoder.md R180, R181, R185). -/
def LinesFit (s : State) : Prop :=
  if s.seq.isCycleStart s.cfg.depth then s.lines.clk = false ∧ s.lines.lat = true ∧ s.lines.oe = true
  else s.lines = lineBefore s.light s.cfg s.actFrame s.seq

/-- The hold counter of a position in the hold phase is between 1 and DWELL(p) (10_state.md R24). -/
def HoldFits (cfg : Cfg) : Position → Prop
  | .body p _ _ q h => q.val = 198 → 1 ≤ h ∧ h ≤ dwell cfg p
  | .endCycle => True

/-- The invariant of the machine. -/
structure Inv (s : State) : Prop where
  /-- R21: BUS is a register of W_MAX bits. -/
  bus_width : s.bus < 2 ^ s.wMax
  /-- R33, R121, R123: the tables are admissible. -/
  tables : Admissible s.light ∧ Admissible s.gamma
  /-- R134, R135: a held configuration is legal and the masks are derived from it. -/
  configured : s.cfgValid = true → Configured s
  /-- R23: the driven bits of BUS are Pack(LINES). -/
  bus_lines : s.cfgValid = true → s.bus &&& s.masks.driven = pack s.cfg.pins s.lines
  /-- R233: the engine has left IDLE only under a configuration. -/
  active_configured : s.run ≠ .idle → s.cfgValid = true
  /-- R304: in IDLE the lines are G0. -/
  idle_rest : s.run = .idle → s.lines = Lines.g0
  /-- R102, R24: a running engine stands at a reachable position. -/
  running_position : s.run = .running → s.seq.legal s.cfg = true ∧ HoldFits s.cfg s.seq
  /-- R180, R181: a running engine's lines are the program's. -/
  running_lines : s.run = .running → LinesFit s
  /-- R242: STOPPING is entered at a row start, with output disabled and no pulse open. -/
  stopping_rest : s.run = .stopping → s.lines.clk = false ∧ s.lines.lat = true ∧ s.lines.oe = true
  /-- R250: in FAULTED the output is disabled and ERR holds an EngineFault. -/
  faulted_dark : s.run = .faulted → s.lines.oe = true ∧ s.err.cls = 3
  /-- R153: the lock is held only under a configuration. -/
  lock_configured : s.fbBusy = true → s.cfgValid = true
  /-- R160: only the Timeline strategy publishes, and what waits is the newest generation. -/
  pend_newest : s.pendValid = true →
    s.cfgValid = true ∧ s.cfg.strategy = .timeline ∧ s.pendFrame = s.fbFrame ∧ s.pendGen = s.fbGen
  /-- R68: ACT.gen ≤ FB.gen, and (R158) the number identifies the frame. -/
  act_not_newer : s.actGen ≤ s.fbGen ∧ (s.actGen = s.fbGen → s.actFrame = s.fbFrame)
  /-- R301: before a configuration both frames are blank, generation 0. -/
  unconfigured_blank : s.cfgValid = false →
    s.fbFrame = Frame.blank ∧ s.fbGen = 0 ∧ s.actFrame = Frame.blank ∧ s.actGen = 0
  /-- R153: only operations that need the lock wait, and they are well-formed. -/
  waiting_ops : ∀ i ∈ s.waiting, waitsForLock i = true ∧ i.wf = true

/-- How many of the line groups rgb, clk, lat, addr, oe differ (44_sequencer_microops.md R213). -/
def changedGroups (L M : Lines) : Nat :=
  [L.rgb != M.rgb, L.clk != M.clk, L.lat != M.lat, L.addr != M.addr, L.oe != M.oe].countP (fun d => d)

/-- k of the agents' next steps are ticks. -/
def ticks (k : Nat) : List AgentStep := List.replicate k .tick

/-- The hold ticks a running Direct-mode row may still take: DWELL(p) (45_refresh_engine.md R237). -/
def holdBound (s : State) : Nat :=
  match s.cfg.strategy, s.seq with
  | .direct, .body p _ _ _ _ => dwell s.cfg p
  | _, _ => 0

/-- The frame pixel row and channel a line of the RGB group carries, of scan row r (30_encoding.md R91,
43_bcm_encoder.md R174): lines 0, 1, 2 the upper half, 3, 4, 5 the lower half. -/
def lineSource (m : ChanMap) (r : Fin 32) : Fin 6 → Fin 64 × Channel
  | 0 => (upperRow r, m.r)
  | 1 => (upperRow r, m.g)
  | 2 => (upperRow r, m.b)
  | 3 => (lowerRow r, m.r)
  | 4 => (lowerRow r, m.g)
  | 5 => (lowerRow r, m.b)

end Sys2Proof.Machine
end

