-- ==== Sys2Proof/Certificates/Slice0/Obligations.lean ====
section
/-! DEFINITION. The statements for the provers. -/

open Sys2Proof
open Sys2Proof.Machine

/-! ## Colour correction (40_color_correction.md) -/

/-- R121, R123: the two lookup functions return the entry of their table and do nothing else. -/
def Obligations.ColorCorrectionReturnsTableEntry : Prop :=
  ∀ (v : Byte) (s : State),
    exec (.lightnessCorrect v) s = .next { s with result := .value (s.light.read v) } ∧
    exec (.gammaCorrect v) s = .next { s with result := .value (s.gamma.read v) }

/-- The model's free tables (log entry 8) are exactly the tables that R121 and R123 admit: every seed gives an
admissible table, and every admissible table is some seed's. -/
def Obligations.SeededTablesAreTheAdmissibleOnes : Prop :=
  (∀ seed : Nat → Byte, Admissible (Table.ofFn (Config.tableEntry seed))) ∧
  ∀ t : Table, Admissible t → ∃ seed : Nat → Byte, Table.ofFn (Config.tableEntry seed) = t

/-- R126: the tables of the machine after power-on are 0 at 0, 255 at 255 and monotone; and for such a table and every
depth D the value that the D slices of a looked-up channel make (slice p weighted 2^p, R173) is the top D bits of the
entry, is monotone in v, 0 at v = 0 and 2^D − 1 at v = 255. -/
def Obligations.TopBitsMonotone : Prop :=
  Admissible State.reset.light ∧ Admissible State.reset.gamma ∧
  ∀ (f : Table) (depth : Nat), Admissible f → 5 ≤ depth → depth ≤ 8 →
    (∀ v : Byte, slicedValue depth (f.read v) = (f.read v).toNat / 2 ^ (8 - depth)) ∧
    (∀ a b : Byte, a.toNat ≤ b.toNat → slicedValue depth (f.read a) ≤ slicedValue depth (f.read b)) ∧
    slicedValue depth (f.read 0) = 0 ∧ slicedValue depth (f.read 255) = 2 ^ depth - 1

/-! ## Pin assignment (41_pin_assignment.md) -/

/-- R136: the masks of a legal assignment have 6, 5, 1, 1, 1 and 14 bits, the five groups are pairwise disjoint, their
union is driven_mask, and every set bit is below bit W. -/
def Obligations.MasksPartitionDrivenBits : Prop :=
  ∀ (pins : Pins) (width : Nat), LegalPins pins width →
    let m := deriveMasks pins
    let bits (w : BusWord) : Nat := (List.range width).countP fun k => w.testBit k
    bits m.rgb = 6 ∧ bits m.addr = 5 ∧ bits m.clk = 1 ∧ bits m.lat = 1 ∧ bits m.oe = 1 ∧ bits m.driven = 14 ∧
    [m.rgb, m.addr, m.clk, m.lat, m.oe].Pairwise (fun a b => a &&& b = 0) ∧
    m.rgb ||| m.addr ||| m.clk ||| m.lat ||| m.oe = m.driven ∧
    ∀ k : Nat, m.driven.testBit k = true → k < width

/-- R94: under a legal assignment Pack(L) is a word of W bits, every bit of Pack(L) outside driven_mask is 0, bit pos[i] is the line of role i,
Unpack inverts Pack (so Pack is injective), under the identity assignment the bus word equals its LW, and the
non-driven bits of every Timeline word are 0. -/
def Obligations.UnpackInvertsPack : Prop :=
  (∀ (pins : Pins) (width : Nat) (L : Lines), LegalPins pins width →
    pack pins L < 2 ^ width ∧ withoutBits (pack pins L) (deriveMasks pins).driven = 0 ∧
    (∀ i : Fin 14, (pack pins L).testBit (pins.pos i) = roleLine L i) ∧
    unpack pins (pack pins L) = L) ∧
  (∀ L : Lines, pack ⟨0, 1, 2, 3, 4, 5, 6, 7, 8, 9, 10, 11, 12, 13⟩ L = L.word.toNat) ∧
  ∀ (light : Table) (cfg : Cfg) (F : Frame), ∀ w ∈ timeline light cfg F, withoutBits w (deriveMasks cfg.pins).driven = 0

/-- R131: an unconfigured block accepts a legal configuration: all registers and masks are written together, LINES is
G0, and G0 is driven onto the 14 positions. -/
def Obligations.ConfigureAcceptsLegalOperands : Prop :=
  ∀ (s : State) (pins : Pins) (width depth : Nat) (strategy : Strategy) (chanMap : ChanMap) (dwellUnit : Nat),
    s.cfgValid = false →
    LegalCfg s.wMax ⟨width, pins, depth, strategy, chanMap, dwellUnit⟩ →
    ∃ b : BusWord, BusShows pins s.bus Lines.g0 b ∧
      exec (.configure pins width depth strategy chanMap dwellUnit) s =
        .next { s with
          cfg := ⟨width, pins, depth, strategy, chanMap, dwellUnit⟩, masks := deriveMasks pins, cfgValid := true,
          lines := Lines.g0, bus := b, trace := .write 0x3000 :: s.trace, result := .ok }

/-- R131, R275: CONFIGURE reports the first failing check in the order ALREADY_CONFIGURED, WIDTH_RANGE, OUT_OF_RANGE
(lowest role), COLLISION (lexicographically first pair), DEPTH_RANGE, BAD_CHAN_MAP, and changes nothing but ERR and the
returned result. -/
def Obligations.ConfigureReportsFirstFailure : Prop :=
  ∀ (s : State) (pins : Pins) (width depth : Nat) (strategy : Strategy) (chanMap : ChanMap) (dwellUnit : Nat),
    let run := exec (.configure pins width depth strategy chanMap dwellUnit) s
    let inRange : Prop := ∀ i : Fin 14, pins.pos i < width
    let distinct : Prop := ∀ i j : Fin 14, i ≠ j → pins.pos i ≠ pins.pos j
    (s.cfgValid = true → run = .next (rejectedWith ⟨1, 6, 0, 0⟩ s)) ∧
    (s.cfgValid = false → s.wMax < width → run = .next (rejectedWith ⟨1, 3, width, 0⟩ s)) ∧
    (s.cfgValid = false → width ≤ s.wMax → ∀ i : Fin 14, width ≤ pins.pos i → (∀ j : Fin 14, j < i → pins.pos j < width) →
      run = .next (rejectedWith ⟨1, 1, i.val, pins.pos i⟩ s)) ∧
    (s.cfgValid = false → width ≤ s.wMax → inRange → ∀ i j : Fin 14, i < j → pins.pos i = pins.pos j →
      (∀ k l : Fin 14, k < l → (k < i ∨ (k = i ∧ l < j)) → pins.pos k ≠ pins.pos l) →
      run = .next (rejectedWith ⟨1, 2, i.val, j.val⟩ s)) ∧
    (s.cfgValid = false → width ≤ s.wMax → inRange → distinct → (depth < 5 ∨ 8 < depth) →
      run = .next (rejectedWith ⟨1, 4, depth, 0⟩ s)) ∧
    (s.cfgValid = false → width ≤ s.wMax → inRange → distinct → 5 ≤ depth → depth ≤ 8 →
      (chanMap.r = chanMap.g ∨ chanMap.g = chanMap.b ∨ chanMap.r = chanMap.b) →
      run = .next (rejectedWith ⟨1, 5, 0, 0⟩ s))

/-! ## Frame buffer (42_framebuffer.md) -/

/-- R151, R160: FB_REPLACE of a 64×64 grid while the lock is free installs exactly the grid's pixels as the next
generation and publishes it in the Timeline strategy. -/
def Obligations.FbReplaceInstallsWholeFrame : Prop :=
  ∀ (s : State) (g : Grid), s.cfgValid = true → s.fbBusy = false → g.w = 64 → g.h = 64 → g.wf = true →
    ∃ F : Frame, (∀ x y : Fin 64, g.pixels[y.val * 64 + x.val]? = some (F.pixel x y)) ∧
      exec (.fbReplace g) s =
        match s.cfg.strategy with
        | .timeline => .next { s with
            fbFrame := F, fbGen := s.fbGen + 1, pendFrame := F, pendGen := s.fbGen + 1, pendValid := true, result := .ok }
        | .direct => .next { s with fbFrame := F, fbGen := s.fbGen + 1, result := .ok }

/-- R152, R160: FB_INGEST is FB_REPLACE with GAMMA applied to each of the three channels of every pixel. -/
def Obligations.FbIngestInstallsGammaCorrectedFrame : Prop :=
  ∀ (s : State) (g : Grid), s.cfgValid = true → s.fbBusy = false → g.w = 64 → g.h = 64 → g.wf = true →
    ∃ F : Frame,
      (∀ x y : Fin 64, ∃ raw : Pixel, g.pixels[y.val * 64 + x.val]? = some raw ∧
        F.pixel x y = ⟨s.gamma.read raw.r, s.gamma.read raw.g, s.gamma.read raw.b⟩) ∧
      exec (.fbIngest g) s =
        match s.cfg.strategy with
        | .timeline => .next { s with
            fbFrame := F, fbGen := s.fbGen + 1, pendFrame := F, pendGen := s.fbGen + 1, pendValid := true, result := .ok }
        | .direct => .next { s with fbFrame := F, fbGen := s.fbGen + 1, result := .ok }

/-- R154: FB_WRITE_COMMIT by the holder installs the frame, without gamma, and releases the lock in the same step. -/
def Obligations.FbWriteCommitInstallsAndReleases : Prop :=
  ∀ (s : State) (g : Grid), s.cfgValid = true → s.fbBusy = true → g.w = 64 → g.h = 64 → g.wf = true →
    ∃ F : Frame, (∀ x y : Fin 64, g.pixels[y.val * 64 + x.val]? = some (F.pixel x y)) ∧
      exec (.fbWriteCommit g) s =
        match s.cfg.strategy with
        | .timeline => .next { s with
            fbBusy := false, fbFrame := F, fbGen := s.fbGen + 1,
            pendFrame := F, pendGen := s.fbGen + 1, pendValid := true, result := .ok }
        | .direct => .next { s with fbBusy := false, fbFrame := F, fbGen := s.fbGen + 1, result := .ok }

/-- R153, R155: while the lock is free FB_WRITE_BEGIN takes it (nothing else changes), and FB_SNAPSHOT, configured or
not, returns the frame and its generation and writes nothing. -/
def Obligations.LockTakenAndSnapshotReturned : Prop :=
  ∀ s : State, s.fbBusy = false →
    (s.cfgValid = true → exec .fbWriteBegin s = .next { s with fbBusy := true, result := .ok }) ∧
    exec .fbSnapshot s = .next { s with result := .snapshot s.fbFrame s.fbGen }

/-- R151 to R154, R159, R271, R272: what a frame operation that has a step is rejected with: NOT_CONFIGURED before the
dimensions are looked at, BAD_DIMENSIONS for a grid that is not 64×64; a rejected FB_WRITE_COMMIT still releases the
lock, and nothing else changes. -/
def Obligations.FrameOperationsRejected : Prop :=
  ∀ (s : State) (g : Grid),
    (s.fbBusy = false → s.cfgValid = false →
      exec (.fbReplace g) s = .next (rejectedWith ⟨1, 7, 0, 0⟩ s) ∧
      exec (.fbIngest g) s = .next (rejectedWith ⟨1, 7, 0, 0⟩ s) ∧
      exec .fbWriteBegin s = .next (rejectedWith ⟨1, 7, 0, 0⟩ s)) ∧
    (s.fbBusy = false → s.cfgValid = true → (g.w, g.h) ≠ (64, 64) →
      exec (.fbReplace g) s = .next (rejectedWith ⟨2, 1, g.w, g.h⟩ s) ∧
      exec (.fbIngest g) s = .next (rejectedWith ⟨2, 1, g.w, g.h⟩ s)) ∧
    (s.fbBusy = true → (g.w, g.h) ≠ (64, 64) →
      exec (.fbWriteCommit g) s = .next (rejectedWith ⟨2, 1, g.w, g.h⟩ { s with fbBusy := false }))

/-- R151, R153, R155, with the model's waiting list (log entry 4): while a writer holds the lock, FB_REPLACE, FB_INGEST,
FB_WRITE_BEGIN and FB_SNAPSHOT have no step: the operation is put to wait and nothing else changes, no error. -/
def Obligations.LockedOperationsWait : Prop :=
  ∀ (s : State) (i : Instr), s.fbBusy = true → waitsForLock i = true →
    exec i s = .next { s with waiting := s.waiting ++ [i] }

/-- R154, U4: FB_WRITE_COMMIT without the lock is refused, whatever the grid; and U15, log entry 19: a grid that says 64×64
and does not carry 4096 pixels is refused by FB_REPLACE and FB_INGEST where they have a step, and by FB_WRITE_COMMIT of
the holder. -/
def Obligations.CommitWithoutBeginRefused : Prop :=
  ∀ (s : State) (g : Grid),
    (s.fbBusy = false → exec (.fbWriteCommit g) s = .refused .commitWithoutBegin) ∧
    (g.w = 64 → g.h = 64 → g.wf = false →
      (s.fbBusy = false → s.cfgValid = true →
        exec (.fbReplace g) s = .refused .malformedGrid ∧ exec (.fbIngest g) s = .refused .malformedGrid) ∧
      (s.fbBusy = true → exec (.fbWriteCommit g) s = .refused .malformedGrid))

/-! ## Engine control (45_refresh_engine.md) -/

/-- R233: START in each state: NOT_CONFIGURED; the latched error while FAULTED; from IDLE a fresh cycle with STOPREQ
cleared and no bus write; no effect while RUNNING or STOPPING. -/
def Obligations.StartBeginsFreshCycle : Prop :=
  ∀ s : State,
    (s.cfgValid = false → exec .start s = .next (rejectedWith ⟨1, 7, 0, 0⟩ s)) ∧
    (s.cfgValid = true → s.run = .faulted → exec .start s = .next { s with result := .error s.err }) ∧
    (s.cfgValid = true → s.run = .idle → 5 ≤ s.cfg.depth → s.cfg.depth ≤ 8 →
      ∃ p : Fin 8, p.val = s.cfg.depth - 1 ∧
        exec .start s = .next { s with stopreq := false, seq := .body p 0 0 0 0, run := .running, result := .ok }) ∧
    (s.cfgValid = true → (s.run = .running ∨ s.run = .stopping) → exec .start s = .next { s with result := .ok })

/-- R234, R251: STOP sets STOPREQ in every state; STATUS returns the view of R31 and ERR and writes nothing. -/
def Obligations.StopAndStatusInEveryState : Prop :=
  ∀ s : State,
    exec .stop s = .next { s with stopreq := true, result := .ok } ∧
    exec .status s = .next { s with
      result := .status
        { run := match s.run with | .idle => 0 | .running => 1 | .stopping => 2 | .faulted => 3
          cfgValid := s.cfgValid, stopreq := s.stopreq, wbusy := s.fbBusy, pend := s.pendValid
          fbGen := s.fbGen, actGen := s.actGen }
        s.err }

/-- R252, R40, R300: RESET, in every state, gives every element for which R40 states a value that value, and leaves
BUS, LIGHT, GAMMA and W_MAX as they were. The model's choice, and no rule's: RESET also leaves the schedule, the waiting
operations and the trace (log entry 22), and the bits that were held from EXT are the frozen ones (R309, U10, log
entry 18). -/
def Obligations.ResetOperationRestoresResetValues : Prop :=
  ∀ s : State, ∃ t : State, exec .reset s = .next t ∧
    t.wMax = s.wMax ∧ t.bus = s.bus ∧ t.light = s.light ∧ t.gamma = s.gamma ∧
    t.lines = ⟨0, 0, false, true, true⟩ ∧ t.run = .idle ∧ t.stopreq = false ∧ t.cfgValid = false ∧
    t.fbBusy = false ∧ t.pendValid = false ∧ t.err = ⟨0, 0, 0, 0⟩ ∧ t.fbGen = 0 ∧ t.actGen = 0 ∧
    (∀ x y : Fin 64, t.fbFrame.pixel x y = ⟨0, 0, 0⟩ ∧ t.actFrame.pixel x y = ⟨0, 0, 0⟩) ∧
    t.schedule = s.schedule ∧ t.waiting = s.waiting ∧ t.trace = s.trace ∧ t.result = .ok ∧
    t.frozen = if s.cfgValid then s.masks.driven else s.frozen

/-- R40, R301: the machine after power-on: the values R40 states (BUS and the elements R40 calls unspecified are the
model's choice, log entries 6 and 7, and are not stated here). -/
def Obligations.PowerOnValues : Prop :=
  let s := State.reset
  s.lines = ⟨0, 0, false, true, true⟩ ∧ s.run = .idle ∧ s.stopreq = false ∧ s.cfgValid = false ∧ s.fbBusy = false ∧
    s.pendValid = false ∧ s.err = ⟨0, 0, 0, 0⟩ ∧ s.fbGen = 0 ∧ s.actGen = 0 ∧
    ∀ x y : Fin 64, s.fbFrame.pixel x y = ⟨0, 0, 0⟩ ∧ s.actFrame.pixel x y = ⟨0, 0, 0⟩

/-! ## Micro-operations (44_sequencer_microops.md) -/

/-- R200, R201, R203 to R211: in a configured block each of these micro-operations writes the LINES fields its rule
names, leaves every other field, and puts exactly the new line state on the 14 positions in one bus write. -/
def Obligations.MicroOperationsDriveTheirLines : Prop :=
  ∀ s : State, Configured s →
    (∃ t, exec .clr s = .next t ∧ DrivenTo s { s.lines with rgb := 0 } t) ∧
    (∃ t, exec .ckh s = .next t ∧ DrivenTo s { s.lines with clk := true } t) ∧
    (∃ t, exec .ckl s = .next t ∧ DrivenTo s { s.lines with clk := false } t) ∧
    (∃ t, exec .oed s = .next t ∧ DrivenTo s { s.lines with oe := true } t) ∧
    (∃ t, exec .ltl s = .next t ∧ DrivenTo s { s.lines with lat := false } t) ∧
    (∃ t, exec .lth s = .next t ∧ DrivenTo s { s.lines with lat := true } t) ∧
    (∀ r : Fin 32, ∃ t, exec (.adr r) s = .next t ∧ DrivenTo s { s.lines with addr := BitVec.ofNat 5 r.val } t) ∧
    (∃ t, exec .oee s = .next t ∧ DrivenTo s { s.lines with oe := false } t) ∧
    (∃ t, exec .endCycle s = .next t ∧ DrivenTo s { s.lines with oe := true } t) ∧
    (∃ t, exec .idle s = .next t ∧ DrivenTo s ⟨0, 0, false, true, true⟩ t)

/-- R202, R173, R174, R98: DATA(c) at plane p and row r writes rgb alone: line k of the six is bit 8 − D + p of the
LIGHT-corrected channel that chan_map gives it, of the pixel at column c and row r (upper triple) or r + 32 (lower). -/
def Obligations.DataDrivesSlicedPixelBits : Prop :=
  ∀ (s : State) (p : Fin 8) (n : Fin 128) (r : Fin 32) (q : Fin 199) (h : Nat) (c : Fin 64),
    Configured s → s.seq = .body p n r q h →
    ∃ (e : Entry) (t : State), exec (.data c) s = .next t ∧ DrivenTo s { s.lines with rgb := e } t ∧
      ∀ k : Fin 6, e.getLsbD k.val =
        (corr s.light s.actFrame c (lineSource s.cfg.chanMap r k).1 (lineSource s.cfg.chanMap r k).2).getLsbD
          (8 - s.cfg.depth + p.val)

/-- R212, R243, R246: HOLD(h) at row r of plane p writes no line and no bus word; with h > 1 it counts down, otherwise
the hold ends and the position is the next row's first, the next plane's, or End. It does so in a configured block (in
another one SEQ is unspecified: UnconfiguredMicroOperationFaults). -/
def Obligations.HoldCountsDownThenNextRow : Prop :=
  ∀ (s : State) (p : Fin 8) (n : Fin 128) (r : Fin 32) (q : Fin 199) (h h' : Nat), s.cfgValid = true →
    s.seq = .body p n r q h' →
    (1 < h → exec (.hold h) s = .next { s with seq := .body p n r 198 (h - 1), trace := .hold :: s.trace }) ∧
    (h ≤ 1 → r.val < 31 → ∃ r' : Fin 32, r'.val = r.val + 1 ∧
      exec (.hold h) s = .next { s with seq := .body p 0 r' 0 0, trace := .hold :: s.trace }) ∧
    (h ≤ 1 → r.val = 31 → 0 < p.val → ∃ p' : Fin 8, p'.val + 1 = p.val ∧
      exec (.hold h) s = .next { s with seq := .body p' 0 0 0 0, trace := .hold :: s.trace }) ∧
    (h ≤ 1 → r.val = 31 → p.val = 0 →
      exec (.hold h) s = .next { s with seq := .endCycle, trace := .hold :: s.trace })

/-- R97 and log entry 13, the model's choice: DATA and HOLD of a configured block executed at position End, where there is
no plane and no row, are refused by name (of an unconfigured one: UnconfiguredMicroOperationFaults). -/
def Obligations.RowOperationsAtEndRefused : Prop :=
  ∀ (s : State) (c : Fin 64) (h : Nat), s.cfgValid = true → s.seq = .endCycle →
    exec (.data c) s = .refused .noRowAtEnd ∧ exec (.hold h) s = .refused .noRowAtEnd

/-- R40 (item U2), with log entry 20: every micro-operation faults while CFG.valid = 0, at every position: DATA and HOLD
would read SEQ, the others would drive the bus and read the masks, and these are unspecified and must not be read. -/
def Obligations.UnconfiguredMicroOperationFaults : Prop :=
  ∀ s : State, s.cfgValid = false →
    (∀ i ∈ [Instr.clr, .ckh, .ckl, .oed, .ltl, .lth, .oee, .endCycle, .idle],
      exec i s = .fault (.unspecifiedRead .masks)) ∧
    (∀ r : Fin 32, exec (.adr r) s = .fault (.unspecifiedRead .masks)) ∧
    (∀ c : Fin 64, exec (.data c) s = .fault (.unspecifiedRead .position)) ∧
    ∀ h : Nat, exec (.hold h) s = .fault (.unspecifiedRead .position)

/-! ## The encoder (43_bcm_encoder.md, 30_encoding.md) -/

/-- R175, R91: the six bits of a BitPlane entry. -/
def Obligations.BptEntryPacksSixLines : Prop :=
  ∀ (light : Table) (cfg : Cfg) (F : Frame) (p : Fin 8) (r : Fin 32) (c : Fin 64) (k : Fin 6),
    (bptEntry light cfg F p r c).getLsbD k.val =
      slice cfg.depth
        (corr light F c (lineSource cfg.chanMap r k).1 (lineSource cfg.chanMap r k).2) p

/-- R178, R96, R97, R182: the program of a cycle has TL_LEN(D) = 6336×(2^D − 1) + 1 elements, and the element at Idx of
a position is the micro-operation the phase decode gives that position, reading the position's plane and row. -/
def Obligations.ProgramAgreesWithPhaseDecode : Prop :=
  ∀ cfg : Cfg, 5 ≤ cfg.depth → cfg.depth ≤ 8 → cfg.strategy = .timeline →
    (cycleProgram cfg.depth).length = 6336 * (2 ^ cfg.depth - 1) + 1 ∧
    (∀ (p : Fin 8) (n : Fin 128) (r : Fin 32) (q : Fin 199) (h : Nat), (Position.body p n r q h).legal cfg = true →
      (cycleProgram cfg.depth)[(Position.body p n r q h).idx cfg.depth]? =
        some ⟨p, r, (Position.body p n r q h).microOp⟩) ∧
    ((cycleProgram cfg.depth)[Position.endCycle.idx cfg.depth]?).map (fun st => st.op) = some .endCycle

/-- R96, R239: Idx numbers the positions of a cycle: it is injective, reaches exactly 0 .. L(D), goes up by one from a
body position to its Next, and Next(End) has index 0. -/
def Obligations.IdxNumbersTheCycle : Prop :=
  ∀ cfg : Cfg, 5 ≤ cfg.depth → cfg.depth ≤ 8 → cfg.strategy = .timeline →
    (∀ (p p' : Fin 8) (n n' : Fin 128) (r r' : Fin 32) (q q' : Fin 199) (h h' : Nat),
      (Position.body p n r q h).legal cfg = true → (Position.body p' n' r' q' h').legal cfg = true →
      (Position.body p n r q h).idx cfg.depth = (Position.body p' n' r' q' h').idx cfg.depth →
      p = p' ∧ n = n' ∧ r = r' ∧ q = q') ∧
    (∀ pos : Position, pos.legal cfg = true → pos ≠ .endCycle →
      pos.idx cfg.depth < 6336 * (2 ^ cfg.depth - 1) ∧
      (nextTimeline cfg.depth pos).legal cfg = true ∧
      (nextTimeline cfg.depth pos).idx cfg.depth = pos.idx cfg.depth + 1) ∧
    (∀ i : Nat, i ≤ 6336 * (2 ^ cfg.depth - 1) → ∃ pos : Position, pos.legal cfg = true ∧ pos.idx cfg.depth = i) ∧
    (nextTimeline cfg.depth .endCycle).legal cfg = true ∧ (nextTimeline cfg.depth .endCycle).idx cfg.depth = 0

/-- R181: the line states that R180 generates word by word from G0 have the closed form of R181. -/
def Obligations.TimelineHasClosedForm : Prop :=
  ∀ (light : Table) (cfg : Cfg) (F : Frame), 5 ≤ cfg.depth → cfg.depth ≤ 8 → cfg.strategy = .timeline →
    ∀ pos : Position, pos.legal cfg = true →
      (lineStates light cfg F (cycleProgram cfg.depth) Lines.g0)[pos.idx cfg.depth]? = some (lineAt light cfg F pos)

/-- R188: the first 6336 × 2^(D−1) elements of the program are exactly 2^(D−1) consecutive full scans of plane D−1, for
every frame; and in the Timeline of the all-white frame every rgb field is 0x3F except in the CLR words. -/
def Obligations.TopPlaneIsScannedFirst : Prop :=
  (∀ (depth : Nat) (p : Fin 8), 5 ≤ depth → depth ≤ 8 → p.val = depth - 1 →
    (scanSteps p).length = 6336 ∧
    (cycleProgram depth).take (6336 * 2 ^ (depth - 1)) =
      (List.replicate (2 ^ (depth - 1)) (scanSteps p)).flatten) ∧
  ∀ (light : Table) (cfg : Cfg), light.read 255 = 255 → 5 ≤ cfg.depth → cfg.depth ≤ 8 →
    ∀ (i : Nat) (st : ProgramStep) (L : Lines), (cycleProgram cfg.depth)[i]? = some st →
      (lineStates light cfg (Frame.uniform ⟨255, 255, 255⟩) (cycleProgram cfg.depth) Lines.g0)[i]? = some L →
      L.rgb = if st.op = .clr then 0 else 0x3F

/-- R186: in one cycle, a pixel channel's line carries a 1 at its DATA step in exactly t scans, t the top D bits of the
corrected value, out of 2^D − 1 scans: the shown intensity is proportional to t (the BCM weight law, R177). -/
def Obligations.ShownIntensityIsTopBits : Prop :=
  ∀ (light : Table) (cfg : Cfg) (F : Frame) (r : Fin 32) (c : Fin 64) (k : Fin 6), 5 ≤ cfg.depth → cfg.depth ≤ 8 →
    (cycleProgram cfg.depth).countP
        (fun st => st.row == r && st.op == Instr.data c &&
          (bptEntry light cfg F st.plane r c).getLsbD k.val) =
      (corr light F c (lineSource cfg.chanMap r k).1 (lineSource cfg.chanMap r k).2).toNat / 2 ^ (8 - cfg.depth) ∧
    (cycleProgram cfg.depth).countP (fun st => st.row == r && st.op == Instr.data c) = 2 ^ cfg.depth - 1

/-- R187: the Timeline of the blank frame has rgb 0 in every word, and oe = 1 exactly in the words OED, LTL, LTH, ADR of
every row, in the first 193 words and in the END word, 4 × 32 × (2^D − 1) + 193 + 1 words in all. -/
def Obligations.BlackFrameTimeline : Prop :=
  ∀ (light : Table) (cfg : Cfg), light.read 0 = 0 → 5 ≤ cfg.depth → cfg.depth ≤ 8 →
    let lines := lineStates light cfg Frame.blank (cycleProgram cfg.depth) Lines.g0
    (∀ L ∈ lines, L.rgb = 0) ∧
    (∀ (i : Nat) (L : Lines), lines[i]? = some L →
      (L.oe = true ↔
        (193 ≤ i % 198 ∧ i % 198 ≤ 196 ∧ i < 6336 * (2 ^ cfg.depth - 1)) ∨ i < 193 ∨ i = 6336 * (2 ^ cfg.depth - 1))) ∧
    lines.countP (fun L => L.oe) = 4 * 32 * (2 ^ cfg.depth - 1) + 193 + 1

/-- R189: with the identity channel map every entry of the all-red frame is 0x09 (R1 and R2), in every plane, row and
column, so both red lines are high together in every DATA word, and in its Timeline the G and B lines are low in every
word. -/
def Obligations.RedFrameDrivesOnlyRedLines : Prop :=
  ∀ (light : Table) (cfg : Cfg), light.read 0 = 0 → light.read 255 = 255 → 5 ≤ cfg.depth → cfg.depth ≤ 8 →
    cfg.chanMap = ⟨.red, .green, .blue⟩ →
    let red := Frame.uniform ⟨255, 0, 0⟩
    (∀ (p : Fin 8) (r : Fin 32) (c : Fin 64), p.val < cfg.depth → bptEntry light cfg red p r c = 0x09) ∧
    (∀ L ∈ lineStates light cfg red (cycleProgram cfg.depth) Lines.g0, L.rgb &&& 0x36 = 0) ∧
    ∀ (i : Nat) (st : ProgramStep) (c : Fin 64) (L : Lines), (cycleProgram cfg.depth)[i]? = some st →
      st.op = .data c → (lineStates light cfg red (cycleProgram cfg.depth) Lines.g0)[i]? = some L → L.rgb = 0x09

/-! ## Decoding -/

/-- Decode and encode agree for every well-formed operation with every operand, and what follows is left over (the byte
form is the model's choice, log entry 1). -/
def Obligations.DecodeInvertsEncode : Prop :=
  ∀ (i : Instr) (rest : List Byte), i.wf = true → decode (encode i ++ rest) = .ok (i, rest)

/-- No two byte strings are read as one operation: what decode accepts is the encoding of a well-formed operation (the
byte form is the model's choice, log entry 1). -/
def Obligations.DecodedBytesAreTheEncoding : Prop :=
  ∀ (bytes rest : List Byte) (i : Instr), decode bytes = .ok (i, rest) → i.wf = true ∧ bytes = encode i ++ rest

/-- R99, R100, R102: a code byte in neither table is rejected by name, whatever follows. -/
def Obligations.UnknownCodesRejected : Prop :=
  ∀ (code : Byte) (rest : List Byte),
    ((0x01 ≤ code.toNat ∧ code.toNat ≤ 0x0A) ∨ (0x10 ≤ code.toNat ∧ code.toNat ≤ 0x1B) ∨
      code.toNat = 0x20 ∨ code.toNat = 0x21) ∨
    decode (code :: rest) = .error (.unknownOperation code)

/-- R99, R100: table words written out from the spec's codes decode to their operations. The operands shown are the model's
choice (log entry 1): the operand bytes above the table's 8 bits are zeros. -/
def Obligations.TableWordsDecode : Prop :=
  decodeTableWord 8 0x02 = some (.fbReplace ⟨0, 0, []⟩) ∧
  decodeTableWord 8 0x07 = some .start ∧
  decodeTableWord 8 0x10 = some .clr ∧
  decodeTableWord 8 0x17 = some (.adr 0) ∧
  decodeTableWord 8 0x1A = some .idle ∧
  decodeTableWord 8 0x21 = some (.gammaCorrect 0)

/-! ## Steps of the agents -/

/-- A scheduled host transaction (R7, R99) whose bytes decode to an operation, followed by nothing but zero padding, is
executed: step is exec of it, with the transaction taken off the schedule. A micro-operation, other bytes after the
operands, and bytes that do not decode are refused by name. The schedule, the zero padding and the byte form, and the
refusal of micro-operations are the model's (log entries 2, 1 and 12). -/
def Obligations.StepRunsHostTransaction : Prop :=
  ∀ (s : State) (bytes : List Byte) (later : List AgentStep), s.schedule = .host bytes :: later →
    (∀ e : DecodeError, decode bytes = .error e → step s = .refused (.badTransaction e)) ∧
    ∀ (i : Instr) (rest : List Byte), decode bytes = .ok (i, rest) →
      ((∀ b ∈ rest, b = 0) → i.isMicro = false → step s = exec i { s with schedule := later }) ∧
      ((∀ b ∈ rest, b = 0) → i.isMicro = true → step s = .refused .microOperationFromHost) ∧
      ((∃ b ∈ rest, b ≠ 0) → step s = .refused .trailingBytes)

/-- R235, R236, R238: a tick of a running Timeline engine that sees no stop request at a row start executes the
micro-operation its position decodes to, after the swap at the cycle start, and SEQ takes Next; the outcome is exec's.
That it does so on the line state the Timeline holds before the position is the model's way of replaying the stored
word (DEDUCED, log entry 10; TimelineTickReplaysStoredWord states the stored word). -/
def Obligations.StepRunsTimelineMicroOperation : Prop :=
  ∀ (s : State) (later : List AgentStep), Configured s → s.cfg.strategy = .timeline → s.run = .running →
    s.schedule = .tick :: later → s.seq.legal s.cfg = true → (s.seq.isRowStart = true → s.stopreq = false) →
    let swapped := if s.seq.isCycleStart s.cfg.depth then adopt { s with schedule := later }
      else { s with schedule := later }
    let fetched := { swapped with lines := lineBefore s.light s.cfg swapped.actFrame s.seq }
    step s =
      match exec s.seq.microOp fetched with
      | .next t => .next { t with seq := nextTimeline s.cfg.depth s.seq }
      | .fault f => .fault f
      | .refused f => .refused f

/-- R235, R243, R244, R246, R247: a tick of a running Direct engine that sees no stop request at a row start. At End it
executes END and SEQ goes to Body(D−1, 0, 0, 0); in the hold phase it executes HOLD; else it executes the micro-operation
of the position. At q = 0 it takes the snapshot first: with FB.wbusy = 0, ACT becomes FB, with FB.wbusy = 1 ACT stays;
and at the cycle start LINES = G0. Then SEQ takes the next phase of the row; after OEE (q = 197), the hold phase with
h = dwell_unit × 2^p if that is positive, and the next row's position otherwise. -/
def Obligations.StepRunsDirectMicroOperation : Prop :=
  ∀ (s : State) (later : List AgentStep), Configured s → s.cfg.strategy = .direct → s.run = .running →
    s.schedule = .tick :: later → s.seq.legal s.cfg = true → (s.seq.isRowStart = true → s.stopreq = false) →
    match s.seq with
    | .endCycle =>
      step s =
        match exec .endCycle { s with schedule := later } with
        | .next t => .next { t with seq := .body (Fin.ofNat 8 (s.cfg.depth - 1)) 0 0 0 0 }
        | .fault f => .fault f
        | .refused f => .refused f
    | .body p n r q h =>
      (q.val = 198 → step s = exec (.hold h) { s with schedule := later }) ∧
      (q.val < 198 →
        let acquired :=
          if q.val = 0 ∧ s.fbBusy = false then
            { s with schedule := later, actFrame := s.fbFrame, actGen := s.fbGen }
          else { s with schedule := later }
        let fetched :=
          if p.val + 1 = s.cfg.depth ∧ r.val = 0 ∧ q.val = 0 then { acquired with lines := Lines.g0 } else acquired
        let advanced : Position :=
          if q.val < 197 then .body p 0 r (q + 1) 0
          else if 0 < s.cfg.dwellUnit * 2 ^ p.val then .body p 0 r 198 (s.cfg.dwellUnit * 2 ^ p.val)
          else if r.val < 31 then .body p 0 (r + 1) 0 0
          else if 0 < p.val then .body (p - 1) 0 0 0 0
          else .endCycle
        step s =
          match exec (Position.body p n r q h).microOp fetched with
          | .next t => .next { t with seq := advanced }
          | .fault f => .fault f
          | .refused f => .refused f)

/-- R235, R237, R242: a running engine that sees STOPREQ at a row start takes two ticks: OED alone is written, in
STOPPING; then G0, and the engine is IDLE; SEQ, ACT, PEND and STOPREQ are as they were. -/
def Obligations.StopSequenceIsTwoTicks : Prop :=
  ∀ (s : State) (later : List AgentStep), Configured s → s.run = .running → s.stopreq = true →
    s.seq.isRowStart = true → s.schedule = .tick :: .tick :: later →
    ∃ b b' : BusWord,
      BusShows s.cfg.pins s.bus { s.lines with oe := true } b ∧ BusShows s.cfg.pins b Lines.g0 b' ∧
      step s = .next { s with
        lines := { s.lines with oe := true }, bus := b, run := .stopping, schedule := .tick :: later,
        trace := .write ({ s.lines with oe := true } : Lines).word :: s.trace } ∧
      Host.Core.run core 2 s = .next { s with
        lines := Lines.g0, bus := b', run := .idle, schedule := later,
        trace := .write 0x3000 :: .write ({ s.lines with oe := true } : Lines).word :: s.trace }

/-- R250: an internal fault of a RUNNING or STOPPING engine forces oe = 1 in one bus write and nothing else on the
lines, enters FAULTED and records (3, cause, 0, 0). -/
def Obligations.FaultForcesOutputDisabled : Prop :=
  ∀ (s : State) (cause : Nat) (later : List AgentStep), Configured s → (s.run = .running ∨ s.run = .stopping) →
    s.schedule = .envFault cause :: later →
    ∃ b : BusWord, BusShows s.cfg.pins s.bus { s.lines with oe := true } b ∧
      step s = .next { s with
        lines := { s.lines with oe := true }, bus := b, run := .faulted, err := ⟨3, cause, 0, 0⟩, schedule := later,
        trace := .write ({ s.lines with oe := true } : Lines).word :: s.trace }

/-- R230, R250, with log entry 5: in IDLE and FAULTED a scheduled tick and a scheduled fault change nothing. -/
def Obligations.InactiveEngineHasNoStep : Prop :=
  ∀ (s : State) (later : List AgentStep), (s.run = .idle ∨ s.run = .faulted) →
    (s.schedule = .tick :: later → step s = .next { s with schedule := later }) ∧
    ∀ cause : Nat, s.schedule = .envFault cause :: later → step s = .next { s with schedule := later }

/-- R7, R21: a step of EXT in a configured block sets the bits of BUS outside driven_mask to those it writes, below W_MAX,
and never changes a bit inside; nothing else changes. The last clause is the model's choice (DEDUCED and DESIGN CHOICE,
log entry 18), about its own field `frozen`: without a configuration EXT leaves the bits that a RESET in any state froze
and sets every other one, all of them after power-on. R309 and item U10 speak of a RESET while RUNNING only. -/
def Obligations.ExtChangesOnlyForeignBits : Prop :=
  ∀ (s : State) (word : BusWord) (later : List AgentStep), s.schedule = .ext word :: later →
    ∃ b : BusWord, step s = .next { s with bus := b, schedule := later } ∧
      (s.cfgValid = true → ∀ k : Nat, b.testBit k =
        if s.masks.driven.testBit k then s.bus.testBit k else (decide (k < s.wMax) && word.testBit k)) ∧
      (s.cfgValid = false → ∀ k : Nat, b.testBit k =
        if s.frozen.testBit k then s.bus.testBit k else (decide (k < s.wMax) && word.testBit k))

/-! ## The whole machine -/

/-- The invariant holds after power-on. -/
def Obligations.InvariantAtReset : Prop := Inv State.reset

/-- Every step of every agent keeps the invariant (R23, R134, R242, R250, R304, R68, R158, R160). -/
def Obligations.InvariantKeptByStep : Prop := ∀ s t : State, Inv s → step s = .next t → Inv t

/-- In the invariant no step of any agent faults; a step that is no host transaction's answers a next state; and a host
transaction is refused only because its bytes are no operation, carry other bytes than zero padding after the operands,
carry a micro-operation (R102, R200), or are an FB_WRITE_COMMIT without the lock (R154, U4). The model's choice, and no
rule's: the byte form and the zero padding that is let through (log entry 1), the schedule (log entry 2), that a step
with nothing scheduled, a resumed operation, and a tick or a fault event in IDLE and FAULTED answer a next state (log
entries 3, 4 and 5), and the refusal of a micro-operation from HOST (DEDUCED, log entry 12). -/
def Obligations.InvariantStatesStopOnlyOnRefusedTransactions : Prop :=
  ∀ s : State, Inv s →
    (∀ f : Fault, step s ≠ .fault f) ∧
    ((∀ (bytes : List Byte) (later : List AgentStep), s.schedule ≠ .host bytes :: later) → ∃ t : State, step s = .next t) ∧
    ∀ (bytes : List Byte) (later : List AgentStep) (why : Refusal), s.schedule = .host bytes :: later →
      step s = .refused why →
      (∃ e : DecodeError, decode bytes = .error e ∧ why = .badTransaction e) ∨
      ∃ (i : Instr) (rest : List Byte), decode bytes = .ok (i, rest) ∧
        (((∃ b ∈ rest, b ≠ 0) ∧ why = .trailingBytes) ∨
          (i.isMicro = true ∧ why = .microOperationFromHost) ∨
          (∃ g : Grid, i = .fbWriteCommit g ∧ s.fbBusy = false ∧ why = .commitWithoutBegin))

/-- R236, R180: a Timeline tick drives the stored word: the word written is TL(ACT)[Idx(SEQ)] of the generation held
after the swap, BUS takes its driven bits, LINES is its Unpack. -/
def Obligations.TimelineTickReplaysStoredWord : Prop :=
  ∀ (s : State) (later : List AgentStep), Configured s → s.cfg.strategy = .timeline → s.run = .running →
    s.schedule = .tick :: later → s.seq.legal s.cfg = true → (s.seq.isRowStart = true → s.stopreq = false) →
    ∃ (t : State) (w : BusWord), step s = .next t ∧
      (timeline s.light s.cfg t.actFrame)[s.seq.idx s.cfg.depth]? = some w ∧
      t.bus = withoutBits s.bus s.masks.driven ||| (w &&& s.masks.driven) ∧
      t.lines = unpack s.cfg.pins w ∧
      t.seq = nextTimeline s.cfg.depth s.seq ∧ t.trace = .write t.lines.word :: s.trace ∧
      (s.seq.isCycleStart s.cfg.depth = false → t.actFrame = s.actFrame ∧ t.actGen = s.actGen)

/-- R185: in both strategies a tick of a running engine outside the hold phase drives the line state that R181 gives
its position for the frame held after the swap: the same 198 line states in the same order, and END. -/
def Obligations.BothStrategiesDriveTheProgram : Prop :=
  ∀ (s : State) (later : List AgentStep), Inv s → s.run = .running → s.schedule = .tick :: later →
    (s.seq.isRowStart = true → s.stopreq = false) →
    (∀ (p : Fin 8) (n : Fin 128) (r : Fin 32) (q : Fin 199) (h : Nat), s.seq = .body p n r q h → q.val ≠ 198) →
    ∃ t : State, step s = .next t ∧ t.lines = lineAt s.light s.cfg t.actFrame s.seq ∧
      t.trace = .write t.lines.word :: s.trace ∧ t.bus &&& s.masks.driven = pack s.cfg.pins t.lines

/-- R303: between a CONFIGURE and the next RESET, a step that moves the latch line or any address line finds the output
disabled and leaves it disabled; and a step that enables the output changes nothing else on the lines. -/
def Obligations.OutputDisableBracketsLatchAndAddress : Prop :=
  ∀ s t : State, Inv s → step s = .next t → s.cfgValid = true → t.cfgValid = true →
    ((t.lines.lat ≠ s.lines.lat ∨ t.lines.addr ≠ s.lines.addr) → s.lines.oe = true ∧ t.lines.oe = true) ∧
    (s.lines.oe = true → t.lines.oe = false → t.lines = { s.lines with oe := false })

/-- R213, R305: in one step of a configured block at most one of the groups rgb, clk, lat, addr, oe changes, except in
the cycle-start word and the idle word, where no clock, latch or output-enable line changes; so the RGB lines are stable
at every clock edge. -/
def Obligations.OneLineGroupPerWord : Prop :=
  ∀ s t : State, Inv s → step s = .next t → s.cfgValid = true → t.cfgValid = true →
    (¬(s.run = .running ∧ atCycleStart s) → s.run ≠ .stopping → changedGroups s.lines t.lines ≤ 1) ∧
    ((s.run = .running ∧ atCycleStart s) ∨ s.run = .stopping →
      t.lines.clk = s.lines.clk ∧ t.lines.lat = s.lines.lat ∧ t.lines.oe = s.lines.oe) ∧
    (t.lines.clk ≠ s.lines.clk → t.lines.rgb = s.lines.rgb)

/-- R306, R232: no step of the core, of HOST or of ENV changes a bit of BUS outside driven_mask of a configured block;
the one step that changes such a bit is EXT's. An unconfigured block writes the bus only in a successful CONFIGURE, and
then only the bits of the masks it installs; until then the word that a RESET left stands (R309). The last clause,
that the frozen bits stand as well, is about the model's own field `frozen` (DEDUCED and DESIGN CHOICE, log entry 18). -/
def Obligations.ForeignBitsNeverDisturbed : Prop :=
  ∀ s t : State, step s = .next t → (∀ (w : BusWord) (later : List AgentStep), s.schedule ≠ .ext w :: later) →
    (s.cfgValid = true → withoutBits t.bus s.masks.driven = withoutBits s.bus s.masks.driven) ∧
    (s.cfgValid = false → t.cfgValid = true → withoutBits t.bus t.masks.driven = withoutBits s.bus t.masks.driven) ∧
    (s.cfgValid = false → t.cfgValid = false → t.bus = s.bus ∧ t.frozen = s.frozen)

/-- R68 item 5, R70, R238, R244, R307: a step that changes ACT is HOST's RESET, or a tick of a running engine at a swap
point (the cycle start in Timeline mode, q = 0 of a row in Direct mode with the lock free), and then ACT becomes the
newest generation available there. The tick is the scheduled one, or the one taken with nothing scheduled; the schedule
and the byte form of the RESET transaction are the model's (log entries 1, 2 and 3). -/
def Obligations.ActChangesOnlyAtSwapPoints : Prop :=
  ∀ s t : State, Inv s → step s = .next t → (t.actFrame ≠ s.actFrame ∨ t.actGen ≠ s.actGen) →
    (ResetScheduled s ∧ t.cfgValid = false ∧ t.actGen = 0 ∧ t.actFrame = Frame.blank) ∨
    (((∃ later : List AgentStep, s.schedule = .tick :: later) ∨ s.schedule = []) ∧
      s.run = .running ∧ s.stopreq = false ∧ t.actFrame = s.fbFrame ∧ t.actGen = s.fbGen ∧
      match s.cfg.strategy with
      | .timeline => atCycleStart s ∧ s.pendValid = true
      | .direct => s.seq.isRowStart = true ∧ s.fbBusy = false)

/-- R68 items 1 and 4, R34: unless a step is HOST's RESET, which blanks both frames at generation 0, FB.gen and ACT.gen
do not decrease, FB.gen goes up by at most one, and FB.frame changes only with a new generation. The schedule and the
byte form of the RESET transaction are the model's (log entries 1 and 2). -/
def Obligations.GenerationsNeverDecrease : Prop :=
  ∀ s t : State, Inv s → step s = .next t →
    (ResetScheduled s ∧ t.cfgValid = false ∧ t.fbGen = 0 ∧ t.actGen = 0 ∧
      t.fbFrame = Frame.blank ∧ t.actFrame = Frame.blank) ∨
    (s.actGen ≤ t.actGen ∧ t.actGen ≤ t.fbGen ∧
      ((t.fbGen = s.fbGen ∧ t.fbFrame = s.fbFrame) ∨ t.fbGen = s.fbGen + 1))

/-- R67, R157, R230: a tick writes only LINES, SEQ, ACT, ENG.run, PEND.valid and BUS (and the model's trace): never the
frame buffer, the configuration, the masks, STOPREQ, ERR, the tables or the pending generation. -/
def Obligations.TickFrame : Prop :=
  ∀ (s t : State) (later : List AgentStep), s.schedule = .tick :: later → step s = .next t →
    t = { s with
      lines := t.lines, seq := t.seq, actFrame := t.actFrame, actGen := t.actGen, run := t.run,
      pendValid := t.pendValid, bus := t.bus, trace := t.trace, schedule := later } ∧
    (t.pendValid = s.pendValid ∨ t.pendValid = false) ∧
    (t.trace = s.trace ∨ ∃ e, t.trace = e :: s.trace)

/-- R29, R30, R134, R28: a held configuration and its masks change in no step but a RESET: HOST's, or one that waits,
which no state of the invariant has. The schedule, the list of waiting operations and the byte form of the RESET
transaction are the model's (log entries 1, 2 and 4). -/
def Obligations.ConfigurationHeldUntilReset : Prop :=
  ∀ s t : State, step s = .next t → s.cfgValid = true →
    (t.cfgValid = true ∧ t.cfg = s.cfg ∧ t.masks = s.masks) ∨
    ((ResetScheduled s ∨ (ResetResumed s ∧ ¬Inv s)) ∧
      t.cfgValid = false ∧ t.run = .idle ∧ t.fbGen = 0 ∧ t.bus = s.bus ∧ t.result = .ok)

/-- R33, R120, R39: no step writes LIGHT, GAMMA or W_MAX, RESET included. -/
def Obligations.TablesNeverChange : Prop :=
  ∀ s t : State, step s = .next t → t.light = s.light ∧ t.gamma = s.gamma ∧ t.wMax = s.wMax

/-- R26, R277, R278: FAULTED is left by HOST's RESET only, and until then ERR keeps the fault record and the bus and the
lines stand still, but for EXT's bits. The schedule and the byte form of the RESET transaction are the model's (log
entries 1 and 2). -/
def Obligations.FaultedUntilReset : Prop :=
  ∀ s t : State, Inv s → step s = .next t → s.run = .faulted →
    (t.run = .faulted ∧ t.err = s.err ∧ t.lines = s.lines ∧ t.trace = s.trace ∧
      t.bus &&& s.masks.driven = s.bus &&& s.masks.driven) ∨
    (ResetScheduled s ∧ t.run = .idle ∧ t.cfgValid = false ∧ t.err = ⟨0, 0, 0, 0⟩)

/-! ## Progress, counted in ticks -/

/-- R237, R242, R312: from a STOP, at most one row-scan step, an END tick and the two ticks of the stop sequence later
(and the rest of a hold in Direct mode), the engine is IDLE with LINES = G0. -/
def Obligations.StopReachesIdle : Prop :=
  ∀ (s : State) (later : List AgentStep), Inv s → s.run = .running → s.stopreq = true →
    s.schedule = ticks (200 + holdBound s) ++ later →
    ∃ t : State, Host.Core.run core (200 + holdBound s) s = .next t ∧
      t.run = .idle ∧ t.lines = Lines.g0 ∧ t.schedule = later

/-- R69, R312: a pending generation is adopted by a running Timeline engine within one cycle, TL_LEN(D) ticks. -/
def Obligations.PendingAdoptedWithinOneCycle : Prop :=
  ∀ (s : State) (later : List AgentStep), Inv s → s.cfg.strategy = .timeline → s.run = .running →
    s.stopreq = false → s.pendValid = true → s.schedule = ticks (6336 * (2 ^ s.cfg.depth - 1) + 1) ++ later →
    ∃ (k : Nat) (t : State), 1 ≤ k ∧ k ≤ 6336 * (2 ^ s.cfg.depth - 1) + 1 ∧ Host.Core.run core k s = .next t ∧
      t.actGen = s.pendGen ∧ t.actFrame = s.pendFrame ∧ t.pendValid = false

/-- R212, R247, R246: the OEE word of a row of plane p enters a hold of DWELL(p) = dwell_unit × 2^p ticks: that many
ticks later the engine stands at the next row's position, with one silent trace event each and the lines and the bus as
OEE left them (no hold at all where dwell_unit = 0). And from any count h of the hold phase exactly h ticks remain. -/
def Obligations.HoldTakesDwellTicks : Prop :=
  ∀ (s : State) (later : List AgentStep) (p : Fin 8) (n : Fin 128) (r : Fin 32) (h : Nat),
    Configured s → s.cfg.strategy = .direct → s.run = .running → s.seq.legal s.cfg = true →
    (s.seq = .body p n r 197 h → s.schedule = ticks (1 + s.cfg.dwellUnit * 2 ^ p.val) ++ later →
      ∃ b : BusWord, BusShows s.cfg.pins s.bus { s.lines with oe := false } b ∧
        Host.Core.run core (1 + s.cfg.dwellUnit * 2 ^ p.val) s = .next { s with
          lines := { s.lines with oe := false }, bus := b, seq := nextRow p r, schedule := later,
          trace := List.replicate (s.cfg.dwellUnit * 2 ^ p.val) .hold ++
            .write ({ s.lines with oe := false } : Lines).word :: s.trace }) ∧
    (s.seq = .body p n r 198 h → 1 ≤ h → s.schedule = ticks h ++ later →
      Host.Core.run core h s = .next { s with
        seq := nextRow p r, trace := List.replicate h .hold ++ s.trace, schedule := later })

/-! ## Waiting operations -/

/-- Where a scheduled operation that waits gets its step (R71, log entries 3 and 4, the model's choice): resumed while
the lock is free it is executed and leaves the list; resumed while the lock is held, or where there is none, nothing
changes. With nothing scheduled, the first waiting operation is executed if the lock is free, and otherwise the step is
a tick. -/
def Obligations.WaitingOperationRunsWhenLockFree : Prop :=
  ∀ s : State,
    (∀ (k : Nat) (later : List AgentStep), s.schedule = .resume k :: later →
      (∀ i : Instr, s.waiting[k]? = some i → s.fbBusy = false →
        step s = exec i { s with schedule := later, waiting := s.waiting.eraseIdx k }) ∧
      ((s.waiting[k]? = none ∨ s.fbBusy = true) → step s = .next { s with schedule := later })) ∧
    (s.schedule = [] →
      (∀ (i : Instr) (rest : List Instr), s.waiting = i :: rest → s.fbBusy = false →
        step s = exec i { s with waiting := rest }) ∧
      ((s.waiting = [] ∨ s.fbBusy = true) → step s = step { s with schedule := [.tick] }))
end

