-- ==== Sys2Proof/Laws/State.lean ====
section
/-! SUPPORT. One lemma per field of State for each named update of Machine/Ops.lean and Machine/Flags.lean, so that no
proof unfolds a record update. -/

namespace Sys2Proof.Machine

@[simp] theorem drive_wMax (L : Lines) (s : State) : (drive L s).wMax = s.wMax := rfl
@[simp] theorem drive_bus (L : Lines) (s : State) : (drive L s).bus = maskedWrite s.bus (pack s.cfg.pins L) s.masks.driven := rfl
@[simp] theorem drive_lines (L : Lines) (s : State) : (drive L s).lines = L := rfl
@[simp] theorem drive_seq (L : Lines) (s : State) : (drive L s).seq = s.seq := rfl
@[simp] theorem drive_run (L : Lines) (s : State) : (drive L s).run = s.run := rfl
@[simp] theorem drive_stopreq (L : Lines) (s : State) : (drive L s).stopreq = s.stopreq := rfl
@[simp] theorem drive_cfgValid (L : Lines) (s : State) : (drive L s).cfgValid = s.cfgValid := rfl
@[simp] theorem drive_cfg (L : Lines) (s : State) : (drive L s).cfg = s.cfg := rfl
@[simp] theorem drive_masks (L : Lines) (s : State) : (drive L s).masks = s.masks := rfl
@[simp] theorem drive_err (L : Lines) (s : State) : (drive L s).err = s.err := rfl
@[simp] theorem drive_light (L : Lines) (s : State) : (drive L s).light = s.light := rfl
@[simp] theorem drive_gamma (L : Lines) (s : State) : (drive L s).gamma = s.gamma := rfl
@[simp] theorem drive_fbFrame (L : Lines) (s : State) : (drive L s).fbFrame = s.fbFrame := rfl
@[simp] theorem drive_fbGen (L : Lines) (s : State) : (drive L s).fbGen = s.fbGen := rfl
@[simp] theorem drive_fbBusy (L : Lines) (s : State) : (drive L s).fbBusy = s.fbBusy := rfl
@[simp] theorem drive_pendFrame (L : Lines) (s : State) : (drive L s).pendFrame = s.pendFrame := rfl
@[simp] theorem drive_pendGen (L : Lines) (s : State) : (drive L s).pendGen = s.pendGen := rfl
@[simp] theorem drive_pendValid (L : Lines) (s : State) : (drive L s).pendValid = s.pendValid := rfl
@[simp] theorem drive_actFrame (L : Lines) (s : State) : (drive L s).actFrame = s.actFrame := rfl
@[simp] theorem drive_actGen (L : Lines) (s : State) : (drive L s).actGen = s.actGen := rfl
@[simp] theorem drive_schedule (L : Lines) (s : State) : (drive L s).schedule = s.schedule := rfl
@[simp] theorem drive_waiting (L : Lines) (s : State) : (drive L s).waiting = s.waiting := rfl
@[simp] theorem drive_result (L : Lines) (s : State) : (drive L s).result = s.result := rfl
@[simp] theorem drive_trace (L : Lines) (s : State) : (drive L s).trace = .write L.word :: s.trace := rfl
@[simp] theorem drive_frozen (L : Lines) (s : State) : (drive L s).frozen = s.frozen := rfl

@[simp] theorem raise_wMax (e : BlockError) (s : State) : (raise e s).wMax = s.wMax := rfl
@[simp] theorem raise_bus (e : BlockError) (s : State) : (raise e s).bus = s.bus := rfl
@[simp] theorem raise_lines (e : BlockError) (s : State) : (raise e s).lines = s.lines := rfl
@[simp] theorem raise_seq (e : BlockError) (s : State) : (raise e s).seq = s.seq := rfl
@[simp] theorem raise_run (e : BlockError) (s : State) : (raise e s).run = s.run := rfl
@[simp] theorem raise_stopreq (e : BlockError) (s : State) : (raise e s).stopreq = s.stopreq := rfl
@[simp] theorem raise_cfgValid (e : BlockError) (s : State) : (raise e s).cfgValid = s.cfgValid := rfl
@[simp] theorem raise_cfg (e : BlockError) (s : State) : (raise e s).cfg = s.cfg := rfl
@[simp] theorem raise_masks (e : BlockError) (s : State) : (raise e s).masks = s.masks := rfl
@[simp] theorem raise_err (e : BlockError) (s : State) : (raise e s).err = if s.run = .faulted then s.err else e.record := rfl
@[simp] theorem raise_light (e : BlockError) (s : State) : (raise e s).light = s.light := rfl
@[simp] theorem raise_gamma (e : BlockError) (s : State) : (raise e s).gamma = s.gamma := rfl
@[simp] theorem raise_fbFrame (e : BlockError) (s : State) : (raise e s).fbFrame = s.fbFrame := rfl
@[simp] theorem raise_fbGen (e : BlockError) (s : State) : (raise e s).fbGen = s.fbGen := rfl
@[simp] theorem raise_fbBusy (e : BlockError) (s : State) : (raise e s).fbBusy = s.fbBusy := rfl
@[simp] theorem raise_pendFrame (e : BlockError) (s : State) : (raise e s).pendFrame = s.pendFrame := rfl
@[simp] theorem raise_pendGen (e : BlockError) (s : State) : (raise e s).pendGen = s.pendGen := rfl
@[simp] theorem raise_pendValid (e : BlockError) (s : State) : (raise e s).pendValid = s.pendValid := rfl
@[simp] theorem raise_actFrame (e : BlockError) (s : State) : (raise e s).actFrame = s.actFrame := rfl
@[simp] theorem raise_actGen (e : BlockError) (s : State) : (raise e s).actGen = s.actGen := rfl
@[simp] theorem raise_schedule (e : BlockError) (s : State) : (raise e s).schedule = s.schedule := rfl
@[simp] theorem raise_waiting (e : BlockError) (s : State) : (raise e s).waiting = s.waiting := rfl
@[simp] theorem raise_result (e : BlockError) (s : State) : (raise e s).result = .error e.record := rfl
@[simp] theorem raise_trace (e : BlockError) (s : State) : (raise e s).trace = s.trace := rfl
@[simp] theorem raise_frozen (e : BlockError) (s : State) : (raise e s).frozen = s.frozen := rfl

@[simp] theorem respond_wMax (r : Result) (s : State) : (respond r s).wMax = s.wMax := rfl
@[simp] theorem respond_bus (r : Result) (s : State) : (respond r s).bus = s.bus := rfl
@[simp] theorem respond_lines (r : Result) (s : State) : (respond r s).lines = s.lines := rfl
@[simp] theorem respond_seq (r : Result) (s : State) : (respond r s).seq = s.seq := rfl
@[simp] theorem respond_run (r : Result) (s : State) : (respond r s).run = s.run := rfl
@[simp] theorem respond_stopreq (r : Result) (s : State) : (respond r s).stopreq = s.stopreq := rfl
@[simp] theorem respond_cfgValid (r : Result) (s : State) : (respond r s).cfgValid = s.cfgValid := rfl
@[simp] theorem respond_cfg (r : Result) (s : State) : (respond r s).cfg = s.cfg := rfl
@[simp] theorem respond_masks (r : Result) (s : State) : (respond r s).masks = s.masks := rfl
@[simp] theorem respond_err (r : Result) (s : State) : (respond r s).err = s.err := rfl
@[simp] theorem respond_light (r : Result) (s : State) : (respond r s).light = s.light := rfl
@[simp] theorem respond_gamma (r : Result) (s : State) : (respond r s).gamma = s.gamma := rfl
@[simp] theorem respond_fbFrame (r : Result) (s : State) : (respond r s).fbFrame = s.fbFrame := rfl
@[simp] theorem respond_fbGen (r : Result) (s : State) : (respond r s).fbGen = s.fbGen := rfl
@[simp] theorem respond_fbBusy (r : Result) (s : State) : (respond r s).fbBusy = s.fbBusy := rfl
@[simp] theorem respond_pendFrame (r : Result) (s : State) : (respond r s).pendFrame = s.pendFrame := rfl
@[simp] theorem respond_pendGen (r : Result) (s : State) : (respond r s).pendGen = s.pendGen := rfl
@[simp] theorem respond_pendValid (r : Result) (s : State) : (respond r s).pendValid = s.pendValid := rfl
@[simp] theorem respond_actFrame (r : Result) (s : State) : (respond r s).actFrame = s.actFrame := rfl
@[simp] theorem respond_actGen (r : Result) (s : State) : (respond r s).actGen = s.actGen := rfl
@[simp] theorem respond_schedule (r : Result) (s : State) : (respond r s).schedule = s.schedule := rfl
@[simp] theorem respond_waiting (r : Result) (s : State) : (respond r s).waiting = s.waiting := rfl
@[simp] theorem respond_result (r : Result) (s : State) : (respond r s).result = r := rfl
@[simp] theorem respond_trace (r : Result) (s : State) : (respond r s).trace = s.trace := rfl
@[simp] theorem respond_frozen (r : Result) (s : State) : (respond r s).frozen = s.frozen := rfl

@[simp] theorem waitForLock_wMax (i : Instr) (s : State) : (waitForLock i s).wMax = s.wMax := rfl
@[simp] theorem waitForLock_bus (i : Instr) (s : State) : (waitForLock i s).bus = s.bus := rfl
@[simp] theorem waitForLock_lines (i : Instr) (s : State) : (waitForLock i s).lines = s.lines := rfl
@[simp] theorem waitForLock_seq (i : Instr) (s : State) : (waitForLock i s).seq = s.seq := rfl
@[simp] theorem waitForLock_run (i : Instr) (s : State) : (waitForLock i s).run = s.run := rfl
@[simp] theorem waitForLock_stopreq (i : Instr) (s : State) : (waitForLock i s).stopreq = s.stopreq := rfl
@[simp] theorem waitForLock_cfgValid (i : Instr) (s : State) : (waitForLock i s).cfgValid = s.cfgValid := rfl
@[simp] theorem waitForLock_cfg (i : Instr) (s : State) : (waitForLock i s).cfg = s.cfg := rfl
@[simp] theorem waitForLock_masks (i : Instr) (s : State) : (waitForLock i s).masks = s.masks := rfl
@[simp] theorem waitForLock_err (i : Instr) (s : State) : (waitForLock i s).err = s.err := rfl
@[simp] theorem waitForLock_light (i : Instr) (s : State) : (waitForLock i s).light = s.light := rfl
@[simp] theorem waitForLock_gamma (i : Instr) (s : State) : (waitForLock i s).gamma = s.gamma := rfl
@[simp] theorem waitForLock_fbFrame (i : Instr) (s : State) : (waitForLock i s).fbFrame = s.fbFrame := rfl
@[simp] theorem waitForLock_fbGen (i : Instr) (s : State) : (waitForLock i s).fbGen = s.fbGen := rfl
@[simp] theorem waitForLock_fbBusy (i : Instr) (s : State) : (waitForLock i s).fbBusy = s.fbBusy := rfl
@[simp] theorem waitForLock_pendFrame (i : Instr) (s : State) : (waitForLock i s).pendFrame = s.pendFrame := rfl
@[simp] theorem waitForLock_pendGen (i : Instr) (s : State) : (waitForLock i s).pendGen = s.pendGen := rfl
@[simp] theorem waitForLock_pendValid (i : Instr) (s : State) : (waitForLock i s).pendValid = s.pendValid := rfl
@[simp] theorem waitForLock_actFrame (i : Instr) (s : State) : (waitForLock i s).actFrame = s.actFrame := rfl
@[simp] theorem waitForLock_actGen (i : Instr) (s : State) : (waitForLock i s).actGen = s.actGen := rfl
@[simp] theorem waitForLock_schedule (i : Instr) (s : State) : (waitForLock i s).schedule = s.schedule := rfl
@[simp] theorem waitForLock_waiting (i : Instr) (s : State) : (waitForLock i s).waiting = s.waiting ++ [i] := rfl
@[simp] theorem waitForLock_result (i : Instr) (s : State) : (waitForLock i s).result = s.result := rfl
@[simp] theorem waitForLock_trace (i : Instr) (s : State) : (waitForLock i s).trace = s.trace := rfl
@[simp] theorem waitForLock_frozen (i : Instr) (s : State) : (waitForLock i s).frozen = s.frozen := rfl

@[simp] theorem setStopreq_wMax (s : State) : (setStopreq s).wMax = s.wMax := rfl
@[simp] theorem setStopreq_bus (s : State) : (setStopreq s).bus = s.bus := rfl
@[simp] theorem setStopreq_lines (s : State) : (setStopreq s).lines = s.lines := rfl
@[simp] theorem setStopreq_seq (s : State) : (setStopreq s).seq = s.seq := rfl
@[simp] theorem setStopreq_run (s : State) : (setStopreq s).run = s.run := rfl
@[simp] theorem setStopreq_stopreq (s : State) : (setStopreq s).stopreq = true := rfl
@[simp] theorem setStopreq_cfgValid (s : State) : (setStopreq s).cfgValid = s.cfgValid := rfl
@[simp] theorem setStopreq_cfg (s : State) : (setStopreq s).cfg = s.cfg := rfl
@[simp] theorem setStopreq_masks (s : State) : (setStopreq s).masks = s.masks := rfl
@[simp] theorem setStopreq_err (s : State) : (setStopreq s).err = s.err := rfl
@[simp] theorem setStopreq_light (s : State) : (setStopreq s).light = s.light := rfl
@[simp] theorem setStopreq_gamma (s : State) : (setStopreq s).gamma = s.gamma := rfl
@[simp] theorem setStopreq_fbFrame (s : State) : (setStopreq s).fbFrame = s.fbFrame := rfl
@[simp] theorem setStopreq_fbGen (s : State) : (setStopreq s).fbGen = s.fbGen := rfl
@[simp] theorem setStopreq_fbBusy (s : State) : (setStopreq s).fbBusy = s.fbBusy := rfl
@[simp] theorem setStopreq_pendFrame (s : State) : (setStopreq s).pendFrame = s.pendFrame := rfl
@[simp] theorem setStopreq_pendGen (s : State) : (setStopreq s).pendGen = s.pendGen := rfl
@[simp] theorem setStopreq_pendValid (s : State) : (setStopreq s).pendValid = s.pendValid := rfl
@[simp] theorem setStopreq_actFrame (s : State) : (setStopreq s).actFrame = s.actFrame := rfl
@[simp] theorem setStopreq_actGen (s : State) : (setStopreq s).actGen = s.actGen := rfl
@[simp] theorem setStopreq_schedule (s : State) : (setStopreq s).schedule = s.schedule := rfl
@[simp] theorem setStopreq_waiting (s : State) : (setStopreq s).waiting = s.waiting := rfl
@[simp] theorem setStopreq_result (s : State) : (setStopreq s).result = s.result := rfl
@[simp] theorem setStopreq_trace (s : State) : (setStopreq s).trace = s.trace := rfl
@[simp] theorem setStopreq_frozen (s : State) : (setStopreq s).frozen = s.frozen := rfl

@[simp] theorem clearStopreq_wMax (s : State) : (clearStopreq s).wMax = s.wMax := rfl
@[simp] theorem clearStopreq_bus (s : State) : (clearStopreq s).bus = s.bus := rfl
@[simp] theorem clearStopreq_lines (s : State) : (clearStopreq s).lines = s.lines := rfl
@[simp] theorem clearStopreq_seq (s : State) : (clearStopreq s).seq = s.seq := rfl
@[simp] theorem clearStopreq_run (s : State) : (clearStopreq s).run = s.run := rfl
@[simp] theorem clearStopreq_stopreq (s : State) : (clearStopreq s).stopreq = false := rfl
@[simp] theorem clearStopreq_cfgValid (s : State) : (clearStopreq s).cfgValid = s.cfgValid := rfl
@[simp] theorem clearStopreq_cfg (s : State) : (clearStopreq s).cfg = s.cfg := rfl
@[simp] theorem clearStopreq_masks (s : State) : (clearStopreq s).masks = s.masks := rfl
@[simp] theorem clearStopreq_err (s : State) : (clearStopreq s).err = s.err := rfl
@[simp] theorem clearStopreq_light (s : State) : (clearStopreq s).light = s.light := rfl
@[simp] theorem clearStopreq_gamma (s : State) : (clearStopreq s).gamma = s.gamma := rfl
@[simp] theorem clearStopreq_fbFrame (s : State) : (clearStopreq s).fbFrame = s.fbFrame := rfl
@[simp] theorem clearStopreq_fbGen (s : State) : (clearStopreq s).fbGen = s.fbGen := rfl
@[simp] theorem clearStopreq_fbBusy (s : State) : (clearStopreq s).fbBusy = s.fbBusy := rfl
@[simp] theorem clearStopreq_pendFrame (s : State) : (clearStopreq s).pendFrame = s.pendFrame := rfl
@[simp] theorem clearStopreq_pendGen (s : State) : (clearStopreq s).pendGen = s.pendGen := rfl
@[simp] theorem clearStopreq_pendValid (s : State) : (clearStopreq s).pendValid = s.pendValid := rfl
@[simp] theorem clearStopreq_actFrame (s : State) : (clearStopreq s).actFrame = s.actFrame := rfl
@[simp] theorem clearStopreq_actGen (s : State) : (clearStopreq s).actGen = s.actGen := rfl
@[simp] theorem clearStopreq_schedule (s : State) : (clearStopreq s).schedule = s.schedule := rfl
@[simp] theorem clearStopreq_waiting (s : State) : (clearStopreq s).waiting = s.waiting := rfl
@[simp] theorem clearStopreq_result (s : State) : (clearStopreq s).result = s.result := rfl
@[simp] theorem clearStopreq_trace (s : State) : (clearStopreq s).trace = s.trace := rfl
@[simp] theorem clearStopreq_frozen (s : State) : (clearStopreq s).frozen = s.frozen := rfl

@[simp] theorem takeLock_wMax (s : State) : (takeLock s).wMax = s.wMax := rfl
@[simp] theorem takeLock_bus (s : State) : (takeLock s).bus = s.bus := rfl
@[simp] theorem takeLock_lines (s : State) : (takeLock s).lines = s.lines := rfl
@[simp] theorem takeLock_seq (s : State) : (takeLock s).seq = s.seq := rfl
@[simp] theorem takeLock_run (s : State) : (takeLock s).run = s.run := rfl
@[simp] theorem takeLock_stopreq (s : State) : (takeLock s).stopreq = s.stopreq := rfl
@[simp] theorem takeLock_cfgValid (s : State) : (takeLock s).cfgValid = s.cfgValid := rfl
@[simp] theorem takeLock_cfg (s : State) : (takeLock s).cfg = s.cfg := rfl
@[simp] theorem takeLock_masks (s : State) : (takeLock s).masks = s.masks := rfl
@[simp] theorem takeLock_err (s : State) : (takeLock s).err = s.err := rfl
@[simp] theorem takeLock_light (s : State) : (takeLock s).light = s.light := rfl
@[simp] theorem takeLock_gamma (s : State) : (takeLock s).gamma = s.gamma := rfl
@[simp] theorem takeLock_fbFrame (s : State) : (takeLock s).fbFrame = s.fbFrame := rfl
@[simp] theorem takeLock_fbGen (s : State) : (takeLock s).fbGen = s.fbGen := rfl
@[simp] theorem takeLock_fbBusy (s : State) : (takeLock s).fbBusy = true := rfl
@[simp] theorem takeLock_pendFrame (s : State) : (takeLock s).pendFrame = s.pendFrame := rfl
@[simp] theorem takeLock_pendGen (s : State) : (takeLock s).pendGen = s.pendGen := rfl
@[simp] theorem takeLock_pendValid (s : State) : (takeLock s).pendValid = s.pendValid := rfl
@[simp] theorem takeLock_actFrame (s : State) : (takeLock s).actFrame = s.actFrame := rfl
@[simp] theorem takeLock_actGen (s : State) : (takeLock s).actGen = s.actGen := rfl
@[simp] theorem takeLock_schedule (s : State) : (takeLock s).schedule = s.schedule := rfl
@[simp] theorem takeLock_waiting (s : State) : (takeLock s).waiting = s.waiting := rfl
@[simp] theorem takeLock_result (s : State) : (takeLock s).result = s.result := rfl
@[simp] theorem takeLock_trace (s : State) : (takeLock s).trace = s.trace := rfl
@[simp] theorem takeLock_frozen (s : State) : (takeLock s).frozen = s.frozen := rfl

@[simp] theorem releaseLock_wMax (s : State) : (releaseLock s).wMax = s.wMax := rfl
@[simp] theorem releaseLock_bus (s : State) : (releaseLock s).bus = s.bus := rfl
@[simp] theorem releaseLock_lines (s : State) : (releaseLock s).lines = s.lines := rfl
@[simp] theorem releaseLock_seq (s : State) : (releaseLock s).seq = s.seq := rfl
@[simp] theorem releaseLock_run (s : State) : (releaseLock s).run = s.run := rfl
@[simp] theorem releaseLock_stopreq (s : State) : (releaseLock s).stopreq = s.stopreq := rfl
@[simp] theorem releaseLock_cfgValid (s : State) : (releaseLock s).cfgValid = s.cfgValid := rfl
@[simp] theorem releaseLock_cfg (s : State) : (releaseLock s).cfg = s.cfg := rfl
@[simp] theorem releaseLock_masks (s : State) : (releaseLock s).masks = s.masks := rfl
@[simp] theorem releaseLock_err (s : State) : (releaseLock s).err = s.err := rfl
@[simp] theorem releaseLock_light (s : State) : (releaseLock s).light = s.light := rfl
@[simp] theorem releaseLock_gamma (s : State) : (releaseLock s).gamma = s.gamma := rfl
@[simp] theorem releaseLock_fbFrame (s : State) : (releaseLock s).fbFrame = s.fbFrame := rfl
@[simp] theorem releaseLock_fbGen (s : State) : (releaseLock s).fbGen = s.fbGen := rfl
@[simp] theorem releaseLock_fbBusy (s : State) : (releaseLock s).fbBusy = false := rfl
@[simp] theorem releaseLock_pendFrame (s : State) : (releaseLock s).pendFrame = s.pendFrame := rfl
@[simp] theorem releaseLock_pendGen (s : State) : (releaseLock s).pendGen = s.pendGen := rfl
@[simp] theorem releaseLock_pendValid (s : State) : (releaseLock s).pendValid = s.pendValid := rfl
@[simp] theorem releaseLock_actFrame (s : State) : (releaseLock s).actFrame = s.actFrame := rfl
@[simp] theorem releaseLock_actGen (s : State) : (releaseLock s).actGen = s.actGen := rfl
@[simp] theorem releaseLock_schedule (s : State) : (releaseLock s).schedule = s.schedule := rfl
@[simp] theorem releaseLock_waiting (s : State) : (releaseLock s).waiting = s.waiting := rfl
@[simp] theorem releaseLock_result (s : State) : (releaseLock s).result = s.result := rfl
@[simp] theorem releaseLock_trace (s : State) : (releaseLock s).trace = s.trace := rfl
@[simp] theorem releaseLock_frozen (s : State) : (releaseLock s).frozen = s.frozen := rfl

@[simp] theorem setRun_wMax (x : Run) (s : State) : (setRun x s).wMax = s.wMax := rfl
@[simp] theorem setRun_bus (x : Run) (s : State) : (setRun x s).bus = s.bus := rfl
@[simp] theorem setRun_lines (x : Run) (s : State) : (setRun x s).lines = s.lines := rfl
@[simp] theorem setRun_seq (x : Run) (s : State) : (setRun x s).seq = s.seq := rfl
@[simp] theorem setRun_run (x : Run) (s : State) : (setRun x s).run = x := rfl
@[simp] theorem setRun_stopreq (x : Run) (s : State) : (setRun x s).stopreq = s.stopreq := rfl
@[simp] theorem setRun_cfgValid (x : Run) (s : State) : (setRun x s).cfgValid = s.cfgValid := rfl
@[simp] theorem setRun_cfg (x : Run) (s : State) : (setRun x s).cfg = s.cfg := rfl
@[simp] theorem setRun_masks (x : Run) (s : State) : (setRun x s).masks = s.masks := rfl
@[simp] theorem setRun_err (x : Run) (s : State) : (setRun x s).err = s.err := rfl
@[simp] theorem setRun_light (x : Run) (s : State) : (setRun x s).light = s.light := rfl
@[simp] theorem setRun_gamma (x : Run) (s : State) : (setRun x s).gamma = s.gamma := rfl
@[simp] theorem setRun_fbFrame (x : Run) (s : State) : (setRun x s).fbFrame = s.fbFrame := rfl
@[simp] theorem setRun_fbGen (x : Run) (s : State) : (setRun x s).fbGen = s.fbGen := rfl
@[simp] theorem setRun_fbBusy (x : Run) (s : State) : (setRun x s).fbBusy = s.fbBusy := rfl
@[simp] theorem setRun_pendFrame (x : Run) (s : State) : (setRun x s).pendFrame = s.pendFrame := rfl
@[simp] theorem setRun_pendGen (x : Run) (s : State) : (setRun x s).pendGen = s.pendGen := rfl
@[simp] theorem setRun_pendValid (x : Run) (s : State) : (setRun x s).pendValid = s.pendValid := rfl
@[simp] theorem setRun_actFrame (x : Run) (s : State) : (setRun x s).actFrame = s.actFrame := rfl
@[simp] theorem setRun_actGen (x : Run) (s : State) : (setRun x s).actGen = s.actGen := rfl
@[simp] theorem setRun_schedule (x : Run) (s : State) : (setRun x s).schedule = s.schedule := rfl
@[simp] theorem setRun_waiting (x : Run) (s : State) : (setRun x s).waiting = s.waiting := rfl
@[simp] theorem setRun_result (x : Run) (s : State) : (setRun x s).result = s.result := rfl
@[simp] theorem setRun_trace (x : Run) (s : State) : (setRun x s).trace = s.trace := rfl
@[simp] theorem setRun_frozen (x : Run) (s : State) : (setRun x s).frozen = s.frozen := rfl

@[simp] theorem extWrite_wMax (w : BusWord) (s : State) : (extWrite w s).wMax = s.wMax := rfl
@[simp] theorem extWrite_bus (w : BusWord) (s : State) : (extWrite w s).bus = maskedWrite (w % 2 ^ s.wMax) s.bus (heldBits s) := rfl
@[simp] theorem extWrite_lines (w : BusWord) (s : State) : (extWrite w s).lines = s.lines := rfl
@[simp] theorem extWrite_seq (w : BusWord) (s : State) : (extWrite w s).seq = s.seq := rfl
@[simp] theorem extWrite_run (w : BusWord) (s : State) : (extWrite w s).run = s.run := rfl
@[simp] theorem extWrite_stopreq (w : BusWord) (s : State) : (extWrite w s).stopreq = s.stopreq := rfl
@[simp] theorem extWrite_cfgValid (w : BusWord) (s : State) : (extWrite w s).cfgValid = s.cfgValid := rfl
@[simp] theorem extWrite_cfg (w : BusWord) (s : State) : (extWrite w s).cfg = s.cfg := rfl
@[simp] theorem extWrite_masks (w : BusWord) (s : State) : (extWrite w s).masks = s.masks := rfl
@[simp] theorem extWrite_err (w : BusWord) (s : State) : (extWrite w s).err = s.err := rfl
@[simp] theorem extWrite_light (w : BusWord) (s : State) : (extWrite w s).light = s.light := rfl
@[simp] theorem extWrite_gamma (w : BusWord) (s : State) : (extWrite w s).gamma = s.gamma := rfl
@[simp] theorem extWrite_fbFrame (w : BusWord) (s : State) : (extWrite w s).fbFrame = s.fbFrame := rfl
@[simp] theorem extWrite_fbGen (w : BusWord) (s : State) : (extWrite w s).fbGen = s.fbGen := rfl
@[simp] theorem extWrite_fbBusy (w : BusWord) (s : State) : (extWrite w s).fbBusy = s.fbBusy := rfl
@[simp] theorem extWrite_pendFrame (w : BusWord) (s : State) : (extWrite w s).pendFrame = s.pendFrame := rfl
@[simp] theorem extWrite_pendGen (w : BusWord) (s : State) : (extWrite w s).pendGen = s.pendGen := rfl
@[simp] theorem extWrite_pendValid (w : BusWord) (s : State) : (extWrite w s).pendValid = s.pendValid := rfl
@[simp] theorem extWrite_actFrame (w : BusWord) (s : State) : (extWrite w s).actFrame = s.actFrame := rfl
@[simp] theorem extWrite_actGen (w : BusWord) (s : State) : (extWrite w s).actGen = s.actGen := rfl
@[simp] theorem extWrite_schedule (w : BusWord) (s : State) : (extWrite w s).schedule = s.schedule := rfl
@[simp] theorem extWrite_waiting (w : BusWord) (s : State) : (extWrite w s).waiting = s.waiting := rfl
@[simp] theorem extWrite_result (w : BusWord) (s : State) : (extWrite w s).result = s.result := rfl
@[simp] theorem extWrite_trace (w : BusWord) (s : State) : (extWrite w s).trace = s.trace := rfl
@[simp] theorem extWrite_frozen (w : BusWord) (s : State) : (extWrite w s).frozen = s.frozen := rfl

@[simp] theorem acceptCfg_wMax (c : Cfg) (s : State) : (acceptCfg c s).wMax = s.wMax := rfl
@[simp] theorem acceptCfg_bus (c : Cfg) (s : State) : (acceptCfg c s).bus = maskedWrite s.bus (pack c.pins Lines.g0) (deriveMasks c.pins).driven := rfl
@[simp] theorem acceptCfg_lines (c : Cfg) (s : State) : (acceptCfg c s).lines = Lines.g0 := rfl
@[simp] theorem acceptCfg_seq (c : Cfg) (s : State) : (acceptCfg c s).seq = s.seq := rfl
@[simp] theorem acceptCfg_run (c : Cfg) (s : State) : (acceptCfg c s).run = s.run := rfl
@[simp] theorem acceptCfg_stopreq (c : Cfg) (s : State) : (acceptCfg c s).stopreq = s.stopreq := rfl
@[simp] theorem acceptCfg_cfgValid (c : Cfg) (s : State) : (acceptCfg c s).cfgValid = true := rfl
@[simp] theorem acceptCfg_cfg (c : Cfg) (s : State) : (acceptCfg c s).cfg = c := rfl
@[simp] theorem acceptCfg_masks (c : Cfg) (s : State) : (acceptCfg c s).masks = deriveMasks c.pins := rfl
@[simp] theorem acceptCfg_err (c : Cfg) (s : State) : (acceptCfg c s).err = s.err := rfl
@[simp] theorem acceptCfg_light (c : Cfg) (s : State) : (acceptCfg c s).light = s.light := rfl
@[simp] theorem acceptCfg_gamma (c : Cfg) (s : State) : (acceptCfg c s).gamma = s.gamma := rfl
@[simp] theorem acceptCfg_fbFrame (c : Cfg) (s : State) : (acceptCfg c s).fbFrame = s.fbFrame := rfl
@[simp] theorem acceptCfg_fbGen (c : Cfg) (s : State) : (acceptCfg c s).fbGen = s.fbGen := rfl
@[simp] theorem acceptCfg_fbBusy (c : Cfg) (s : State) : (acceptCfg c s).fbBusy = s.fbBusy := rfl
@[simp] theorem acceptCfg_pendFrame (c : Cfg) (s : State) : (acceptCfg c s).pendFrame = s.pendFrame := rfl
@[simp] theorem acceptCfg_pendGen (c : Cfg) (s : State) : (acceptCfg c s).pendGen = s.pendGen := rfl
@[simp] theorem acceptCfg_pendValid (c : Cfg) (s : State) : (acceptCfg c s).pendValid = s.pendValid := rfl
@[simp] theorem acceptCfg_actFrame (c : Cfg) (s : State) : (acceptCfg c s).actFrame = s.actFrame := rfl
@[simp] theorem acceptCfg_actGen (c : Cfg) (s : State) : (acceptCfg c s).actGen = s.actGen := rfl
@[simp] theorem acceptCfg_schedule (c : Cfg) (s : State) : (acceptCfg c s).schedule = s.schedule := rfl
@[simp] theorem acceptCfg_waiting (c : Cfg) (s : State) : (acceptCfg c s).waiting = s.waiting := rfl
@[simp] theorem acceptCfg_result (c : Cfg) (s : State) : (acceptCfg c s).result = s.result := rfl
@[simp] theorem acceptCfg_trace (c : Cfg) (s : State) : (acceptCfg c s).trace = .write Lines.g0.word :: s.trace := rfl
@[simp] theorem acceptCfg_frozen (c : Cfg) (s : State) : (acceptCfg c s).frozen = s.frozen := rfl

@[simp] theorem adopt_wMax (s : State) : (adopt s).wMax = s.wMax := by unfold adopt; split <;> simp_all
@[simp] theorem adopt_bus (s : State) : (adopt s).bus = s.bus := by unfold adopt; split <;> simp_all
@[simp] theorem adopt_lines (s : State) : (adopt s).lines = s.lines := by unfold adopt; split <;> simp_all
@[simp] theorem adopt_seq (s : State) : (adopt s).seq = s.seq := by unfold adopt; split <;> simp_all
@[simp] theorem adopt_run (s : State) : (adopt s).run = s.run := by unfold adopt; split <;> simp_all
@[simp] theorem adopt_stopreq (s : State) : (adopt s).stopreq = s.stopreq := by unfold adopt; split <;> simp_all
@[simp] theorem adopt_cfgValid (s : State) : (adopt s).cfgValid = s.cfgValid := by unfold adopt; split <;> simp_all
@[simp] theorem adopt_cfg (s : State) : (adopt s).cfg = s.cfg := by unfold adopt; split <;> simp_all
@[simp] theorem adopt_masks (s : State) : (adopt s).masks = s.masks := by unfold adopt; split <;> simp_all
@[simp] theorem adopt_err (s : State) : (adopt s).err = s.err := by unfold adopt; split <;> simp_all
@[simp] theorem adopt_light (s : State) : (adopt s).light = s.light := by unfold adopt; split <;> simp_all
@[simp] theorem adopt_gamma (s : State) : (adopt s).gamma = s.gamma := by unfold adopt; split <;> simp_all
@[simp] theorem adopt_fbFrame (s : State) : (adopt s).fbFrame = s.fbFrame := by unfold adopt; split <;> simp_all
@[simp] theorem adopt_fbGen (s : State) : (adopt s).fbGen = s.fbGen := by unfold adopt; split <;> simp_all
@[simp] theorem adopt_fbBusy (s : State) : (adopt s).fbBusy = s.fbBusy := by unfold adopt; split <;> simp_all
@[simp] theorem adopt_pendFrame (s : State) : (adopt s).pendFrame = s.pendFrame := by unfold adopt; split <;> simp_all
@[simp] theorem adopt_pendGen (s : State) : (adopt s).pendGen = s.pendGen := by unfold adopt; split <;> simp_all
@[simp] theorem adopt_pendValid (s : State) : (adopt s).pendValid = false := by unfold adopt; split <;> simp_all
@[simp] theorem adopt_actFrame (s : State) : (adopt s).actFrame = if s.pendValid then s.pendFrame else s.actFrame := by unfold adopt; split <;> simp_all
@[simp] theorem adopt_actGen (s : State) : (adopt s).actGen = if s.pendValid then s.pendGen else s.actGen := by unfold adopt; split <;> simp_all
@[simp] theorem adopt_schedule (s : State) : (adopt s).schedule = s.schedule := by unfold adopt; split <;> simp_all
@[simp] theorem adopt_waiting (s : State) : (adopt s).waiting = s.waiting := by unfold adopt; split <;> simp_all
@[simp] theorem adopt_result (s : State) : (adopt s).result = s.result := by unfold adopt; split <;> simp_all
@[simp] theorem adopt_trace (s : State) : (adopt s).trace = s.trace := by unfold adopt; split <;> simp_all
@[simp] theorem adopt_frozen (s : State) : (adopt s).frozen = s.frozen := by unfold adopt; split <;> simp_all

@[simp] theorem acquire_wMax (s : State) : (acquire s).wMax = s.wMax := by unfold acquire; split <;> simp_all
@[simp] theorem acquire_bus (s : State) : (acquire s).bus = s.bus := by unfold acquire; split <;> simp_all
@[simp] theorem acquire_lines (s : State) : (acquire s).lines = s.lines := by unfold acquire; split <;> simp_all
@[simp] theorem acquire_seq (s : State) : (acquire s).seq = s.seq := by unfold acquire; split <;> simp_all
@[simp] theorem acquire_run (s : State) : (acquire s).run = s.run := by unfold acquire; split <;> simp_all
@[simp] theorem acquire_stopreq (s : State) : (acquire s).stopreq = s.stopreq := by unfold acquire; split <;> simp_all
@[simp] theorem acquire_cfgValid (s : State) : (acquire s).cfgValid = s.cfgValid := by unfold acquire; split <;> simp_all
@[simp] theorem acquire_cfg (s : State) : (acquire s).cfg = s.cfg := by unfold acquire; split <;> simp_all
@[simp] theorem acquire_masks (s : State) : (acquire s).masks = s.masks := by unfold acquire; split <;> simp_all
@[simp] theorem acquire_err (s : State) : (acquire s).err = s.err := by unfold acquire; split <;> simp_all
@[simp] theorem acquire_light (s : State) : (acquire s).light = s.light := by unfold acquire; split <;> simp_all
@[simp] theorem acquire_gamma (s : State) : (acquire s).gamma = s.gamma := by unfold acquire; split <;> simp_all
@[simp] theorem acquire_fbFrame (s : State) : (acquire s).fbFrame = s.fbFrame := by unfold acquire; split <;> simp_all
@[simp] theorem acquire_fbGen (s : State) : (acquire s).fbGen = s.fbGen := by unfold acquire; split <;> simp_all
@[simp] theorem acquire_fbBusy (s : State) : (acquire s).fbBusy = s.fbBusy := by unfold acquire; split <;> simp_all
@[simp] theorem acquire_pendFrame (s : State) : (acquire s).pendFrame = s.pendFrame := by unfold acquire; split <;> simp_all
@[simp] theorem acquire_pendGen (s : State) : (acquire s).pendGen = s.pendGen := by unfold acquire; split <;> simp_all
@[simp] theorem acquire_pendValid (s : State) : (acquire s).pendValid = s.pendValid := by unfold acquire; split <;> simp_all
@[simp] theorem acquire_actFrame (s : State) : (acquire s).actFrame = if s.fbBusy then s.actFrame else s.fbFrame := by unfold acquire; split <;> simp_all
@[simp] theorem acquire_actGen (s : State) : (acquire s).actGen = if s.fbBusy then s.actGen else s.fbGen := by unfold acquire; split <;> simp_all
@[simp] theorem acquire_schedule (s : State) : (acquire s).schedule = s.schedule := by unfold acquire; split <;> simp_all
@[simp] theorem acquire_waiting (s : State) : (acquire s).waiting = s.waiting := by unfold acquire; split <;> simp_all
@[simp] theorem acquire_result (s : State) : (acquire s).result = s.result := by unfold acquire; split <;> simp_all
@[simp] theorem acquire_trace (s : State) : (acquire s).trace = s.trace := by unfold acquire; split <;> simp_all
@[simp] theorem acquire_frozen (s : State) : (acquire s).frozen = s.frozen := by unfold acquire; split <;> simp_all

end Sys2Proof.Machine
end

