-- ==== Sys2Proof/Laws/Ops.lean ====
section
/-! SUPPORT. For each shared operation, once, all it can do where it answers a next state; later proofs cite these
instead of unfolding the operation. -/

namespace Sys2Proof.Machine

/-- Two moves with the same answer. -/
@[simp] theorem thenDo_next (s : State) (f : State → State) : thenDo (.next s) f = .next (f s) := rfl
@[simp] theorem thenDo_fault (r : Fault) (f : State → State) : thenDo (.fault r) f = .fault r := rfl
@[simp] theorem thenDo_refused (r : Refusal) (f : State → State) : thenDo (.refused r) f = .refused r := rfl

theorem thenDo_eq_next {o : Answer} {f : State → State} {t : State} (h : thenDo o f = .next t) :
    ∃ u, o = .next u ∧ t = f u := by
  cases o with
  | next u => exact ⟨u, rfl, by simpa using h.symm⟩
  | fault r => simp at h
  | refused r => simp at h

/-- A guarded bus write: the block is configured and the lines are driven. -/
theorem driveLines_eq_next {L : Lines} {s t : State} (h : driveLines L s = .next t) :
    s.cfgValid = true ∧ t = drive L s := by
  unfold driveLines at h
  split at h
  · exact ⟨‹_›, by simpa using h.symm⟩
  · simp at h

theorem driveLines_of_valid {L : Lines} {s : State} (h : s.cfgValid = true) : driveLines L s = .next (drive L s) := by
  simp [driveLines, h]

/-- A read of SEQ: the block is configured. -/
theorem atPosition_eq_next {s t : State} {f : Position → Answer} (h : atPosition s f = .next t) :
    s.cfgValid = true ∧ f s.seq = .next t := by
  unfold atPosition at h
  split at h
  · exact ⟨‹_›, h⟩
  · simp at h

theorem atPosition_of_valid {s : State} {f : Position → Answer} (h : s.cfgValid = true) : atPosition s f = f s.seq := by
  simp [atPosition, h]

/-- HOLD in a configured block, at the body position SEQ holds (44_sequencer_microops.md R212, 45_refresh_engine.md
R243). -/
theorem execHold_eq_next {h : Nat} {s t : State} (hn : execHold h s = .next t) :
    s.cfgValid = true ∧ ∃ p n r q h', s.seq = .body p n r q h' ∧
      t = { s with seq := if 1 < h then .body p n r 198 (h - 1) else nextRow p r, trace := .hold :: s.trace } := by
  obtain ⟨hv, hn⟩ := atPosition_eq_next hn
  refine ⟨hv, ?_⟩
  split at hn
  · next p n r q h' hs => exact ⟨p, n, r, q, h', hs, by simpa using hn.symm⟩
  · simp at hn

/-- Publish: configured; the Timeline strategy installs the pending generation, the Direct strategy does nothing. -/
theorem publish_eq_next {s t : State} (h : publish s = .next t) :
    s.cfgValid = true ∧
    ((s.cfg.strategy = .timeline ∧ t = { s with pendFrame := s.fbFrame, pendGen := s.fbGen, pendValid := true }) ∨
     (s.cfg.strategy = .direct ∧ t = s)) := by
  unfold publish at h
  split at h
  · refine ⟨‹_›, ?_⟩
    split at h
    · exact .inl ⟨‹_›, by simpa using h.symm⟩
    · exact .inr ⟨‹_›, by simpa using h.symm⟩
  · simp at h

/-- A successful replacement. -/
theorem installFrame_eq_next {F : Frame} {s t : State} (h : installFrame F s = .next t) :
    s.cfgValid = true ∧
    ((s.cfg.strategy = .timeline ∧ t = { s with
        fbFrame := F, fbGen := s.fbGen + 1, pendFrame := F, pendGen := s.fbGen + 1, pendValid := true, result := .ok }) ∨
     (s.cfg.strategy = .direct ∧ t = { s with fbFrame := F, fbGen := s.fbGen + 1, result := .ok })) := by
  obtain ⟨u, hu, rfl⟩ := thenDo_eq_next h
  obtain ⟨hv, h | h⟩ := publish_eq_next hu
  · exact ⟨hv, .inl ⟨h.1, by rw [h.2]; rfl⟩⟩
  · exact ⟨hv, .inr ⟨h.1, by rw [h.2]; rfl⟩⟩

/-- The shared part of the replacing operations: a replacement, or the dimension error. -/
theorem replaceFrame_eq_next {g : Grid} {f : Frame → Frame} {s t : State} (h : replaceFrame g f s = .next t) :
    (∃ F, gridFrame g = some F ∧ is64 g = true ∧ installFrame (f F) s = .next t) ∨
    (is64 g = false ∧ t = raise (.badDimensions g.w g.h) s) := by
  unfold replaceFrame at h
  split at h
  · split at h
    · exact .inl ⟨_, ‹_›, ‹_›, h⟩
    · simp at h
  · exact .inr ⟨by simp_all, by simpa using h.symm⟩

/-- An operation that needs the lock: it runs, or it waits. -/
theorem whenLockFree_eq_next {i : Instr} {s t : State} {f : State → Answer} (h : whenLockFree i s f = .next t) :
    (s.fbBusy = false ∧ f s = .next t) ∨ (s.fbBusy = true ∧ t = waitForLock i s) := by
  unfold whenLockFree lockFree at h
  split at h
  · exact .inl ⟨by simp_all, h⟩
  · exact .inr ⟨by simp_all, by simpa using h.symm⟩

/-- An operation that needs a configuration: it runs, or NOT_CONFIGURED is raised. -/
theorem whenConfigured_eq_next {s t : State} {f : State → Answer} (h : whenConfigured s f = .next t) :
    (s.cfgValid = true ∧ f s = .next t) ∨ (s.cfgValid = false ∧ t = raise .notConfigured s) := by
  unfold whenConfigured at h
  split at h
  · exact .inl ⟨‹_›, h⟩
  · exact .inr ⟨by simp_all, by simpa using h.symm⟩

/-- The fault entry: the output-disabled word, FAULTED and the fault record. -/
theorem faultEntry_eq_next {c : Nat} {s t : State} (h : faultEntry c s = .next t) :
    s.cfgValid = true ∧ t = { drive s.lines.oed s with run := .faulted, err := ⟨3, c, 0, 0⟩ } := by
  obtain ⟨u, hu, rfl⟩ := thenDo_eq_next h
  obtain ⟨hv, rfl⟩ := driveLines_eq_next hu
  exact ⟨hv, rfl⟩

/-- What a host transaction, a resumed operation, a tick, EXT and ENV can do (00_scope.md R7). -/
theorem agentStep_eq_next {a : AgentStep} {s t : State} (h : agentStep a s = .next t) :
    (∃ bytes rest i, a = .host bytes ∧ decode bytes = .ok (i, rest) ∧ (∀ b ∈ rest, b = 0) ∧ i.isMicro = false ∧
      exec i s = .next t) ∨
    (∃ k, a = .resume k ∧ (t = s ∨ ∃ i, s.waiting[k]? = some i ∧ s.fbBusy = false ∧
      exec i { s with waiting := s.waiting.eraseIdx k } = .next t)) ∨
    (a = .tick ∧ tick s = .next t) ∨
    (∃ w, a = .ext w ∧ t = extWrite w s) ∨
    (∃ c, a = .envFault c ∧
      ((engineActive s = true ∧ faultEntry c s = .next t) ∨ (engineActive s = false ∧ t = s))) := by
  cases a with
  | host bytes =>
    simp only [agentStep, hostStep] at h
    split at h
    · simp at h
    · next i rest hd =>
      split at h
      · next hz =>
        split at h
        · simp at h
        · exact .inl ⟨bytes, rest, i, rfl, hd, by simpa using hz, by simp_all, h⟩
      · simp at h
  | resume k =>
    simp only [agentStep, resumeStep, lockFree] at h
    refine .inr (.inl ⟨k, rfl, ?_⟩)
    split at h
    · exact .inl (by simpa using h.symm)
    · next i hk =>
      cases hb : s.fbBusy with
      | false => exact .inr ⟨i, hk, rfl, by simpa [hb] using h⟩
      | true => exact .inl (by simpa [hb] using h.symm)
  | tick => exact .inr (.inr (.inl ⟨rfl, h⟩))
  | ext w => exact .inr (.inr (.inr (.inl ⟨w, rfl, by simpa [agentStep] using h.symm⟩)))
  | envFault c =>
    simp only [agentStep, envStep] at h
    refine .inr (.inr (.inr (.inr ⟨c, rfl, ?_⟩)))
    split at h
    · exact .inl ⟨‹_›, h⟩
    · exact .inr ⟨by simp_all, by simpa using h.symm⟩

end Sys2Proof.Machine
end

