-- ==== Sys2Proof/Laws/Exec.lean ====
section
/-! SUPPORT. What each operation can do where it answers a next state, said once: the host operations by the effect
they have, the micro-operations by the line state they drive. -/

namespace Sys2Proof.Machine

/-- The entries a DATA step reads at a state's position. -/
def rowEntries (s : State) : Fin 64 → Entry :=
  match s.seq with
  | .body p _ r _ _ => bptEntry s.light s.cfg s.actFrame p r
  | .endCycle => fun _ => 0

/-- A micro-operation other than HOLD drives Apply(mop, LINES) (44_sequencer_microops.md R200). -/
theorem exec_micro_eq_next {i : Instr} {s t : State} (hm : i.isMicro = true) (hh : ∀ k, i ≠ .hold k)
    (h : exec i s = .next t) : s.cfgValid = true ∧ t = drive (apply (rowEntries s) i s.lines) s := by
  cases i with
  | data c =>
    have h : execData c s = .next t := h
    obtain ⟨-, h⟩ := atPosition_eq_next h
    split at h
    · next p n r q k hs => simpa [apply, rowEntries, hs] using driveLines_eq_next h
    · simp at h
  | hold k => exact absurd rfl (hh k)
  | clr => exact driveLines_eq_next h
  | ckh => exact driveLines_eq_next h
  | ckl => exact driveLines_eq_next h
  | oed => exact driveLines_eq_next h
  | ltl => exact driveLines_eq_next h
  | lth => exact driveLines_eq_next h
  | adr r => exact driveLines_eq_next h
  | oee => exact driveLines_eq_next h
  | endCycle => exact driveLines_eq_next h
  | idle => exact driveLines_eq_next h
  | _ => simp [Instr.isMicro] at hm

/-- A configured block, at a body position, runs every micro-operation other than HOLD. -/
theorem exec_micro_next {i : Instr} {s : State} (hm : i.isMicro = true) (hh : ∀ k, i ≠ .hold k)
    (hd : ∀ c, i = .data c → s.seq ≠ .endCycle) (hv : s.cfgValid = true) :
    exec i s = .next (drive (apply (rowEntries s) i s.lines) s) := by
  cases i with
  | data c =>
    simp only [exec, execData, atPosition_of_valid hv]
    split
    · next p n r q k hs => simp [apply, rowEntries, hs, driveLines_of_valid hv]
    · next hs => exact absurd hs (hd c rfl)
  | hold k => exact absurd rfl (hh k)
  | clr => exact driveLines_of_valid hv
  | ckh => exact driveLines_of_valid hv
  | ckl => exact driveLines_of_valid hv
  | oed => exact driveLines_of_valid hv
  | ltl => exact driveLines_of_valid hv
  | lth => exact driveLines_of_valid hv
  | adr r => exact driveLines_of_valid hv
  | oee => exact driveLines_of_valid hv
  | endCycle => exact driveLines_of_valid hv
  | idle => exact driveLines_of_valid hv
  | _ => simp [Instr.isMicro] at hm

/-- CONFIGURE finds no failing check only on an unconfigured block and a legal configuration. -/
theorem configureError_eq_none {s : State} {cfg : Cfg}
    (h : configureError s cfg.pins cfg.width cfg.depth cfg.chanMap = none) : s.cfgValid = false ∧ LegalCfg s.wMax cfg := by
  unfold configureError at h
  repeat' (split at h <;> try (simp at h; done))
  rename_i h1 h2 _ h3 _ h4 h5 h6
  refine ⟨by simp_all, by simpa using h2, ⟨?_, ?_⟩, ?_, ?_, ?_⟩
  · intro i
    have := List.find?_eq_none.mp h3 i (List.mem_finRange i)
    simpa using this
  · have key : ∀ i j : Fin 14, i < j → cfg.pins.pos i ≠ cfg.pins.pos j := by
      intro i j hij
      have := List.find?_eq_none.mp h4 (i, j) (by simp [rolePairs, hij])
      simpa using this
    intro i j hij
    rcases lt_or_gt_of_ne hij with hlt | hlt
    · exact key i j hlt
    · exact (key j i hlt).symm
  · simp [Config.depthMin] at h5; omega
  · simp [Config.depthMax] at h5; omega
  · simpa [isPermutation, and_assoc] using h6

/-- What a host operation can do. -/
inductive HostEffect (op : Instr) (s : State) : State → Prop where
  | responds (r : Result) : HostEffect op s (respond r s)
  | rejects (e : BlockError) : HostEffect op s (raise e s)
  | rejectsAndReleases (e : BlockError) : s.fbBusy = true → HostEffect op s (raise e (releaseLock s))
  | waits : s.fbBusy = true → waitsForLock op = true → HostEffect op s (waitForLock op s)
  | accepts (cfg : Cfg) : s.cfgValid = false → LegalCfg s.wMax cfg → HostEffect op s (respond .ok (acceptCfg cfg s))
  | publishes (F : Frame) (u : State) : (u = s ∧ s.fbBusy = false ∨ u = releaseLock s) → s.cfgValid = true →
      s.cfg.strategy = .timeline →
      HostEffect op s { u with
        fbFrame := F, fbGen := s.fbGen + 1, pendFrame := F, pendGen := s.fbGen + 1, pendValid := true, result := .ok }
  | replaces (F : Frame) (u : State) : (u = s ∧ s.fbBusy = false ∨ u = releaseLock s) → s.cfgValid = true →
      s.cfg.strategy = .direct →
      HostEffect op s { u with fbFrame := F, fbGen := s.fbGen + 1, result := .ok }
  | locks : s.cfgValid = true → s.fbBusy = false → HostEffect op s (respond .ok (takeLock s))
  | starts : s.cfgValid = true → s.run = .idle →
      HostEffect op s (respond .ok (setRun .running { clearStopreq s with seq := cycleStart s.cfg.depth }))
  | stops : HostEffect op s (respond .ok (setStopreq s))
  | resets : op = .reset → HostEffect op s { State.reset with
      wMax := s.wMax, bus := s.bus, frozen := heldBits s, light := s.light, gamma := s.gamma,
      schedule := s.schedule, waiting := s.waiting, trace := s.trace, result := .ok }

theorem replaceFrame_effect {op : Instr} {g : Grid} {f : Frame → Frame} {s t : State} (hb : s.fbBusy = false)
    (h : replaceFrame g f s = .next t) : HostEffect op s t := by
  obtain ⟨F, _, _, h⟩ | ⟨_, rfl⟩ := replaceFrame_eq_next h
  · obtain ⟨hv, ⟨hs, rfl⟩ | ⟨hs, rfl⟩⟩ := installFrame_eq_next h
    · exact .publishes _ s (.inl ⟨rfl, hb⟩) hv hs
    · exact .replaces _ s (.inl ⟨rfl, hb⟩) hv hs
  · exact .rejects _

/-- Every host operation that answers a next state has one of these effects. -/
theorem exec_host_effect {i : Instr} {s t : State} (hm : i.isMicro = false) (h : exec i s = .next t) :
    HostEffect i s t := by
  cases i with
  | configure pins width depth strategy chanMap dwellUnit =>
    simp only [exec, execConfigure] at h
    split at h
    · next e _ => simp at h; subst h; exact .rejects e
    · next hn =>
      simp at h; subst h
      obtain ⟨hv, hl⟩ :=
        configureError_eq_none (s := s) (cfg := ⟨width, pins, depth, strategy, chanMap, dwellUnit⟩) hn
      exact .accepts _ hv hl
  | fbReplace g =>
    have h : execFbReplace g s = .next t := h
    obtain ⟨hb, h⟩ | ⟨hb, rfl⟩ := whenLockFree_eq_next h
    · obtain ⟨_, h⟩ | ⟨_, rfl⟩ := whenConfigured_eq_next h
      · exact replaceFrame_effect hb h
      · exact .rejects _
    · exact .waits hb rfl
  | fbIngest g =>
    have h : execFbIngest g s = .next t := h
    obtain ⟨hb, h⟩ | ⟨hb, rfl⟩ := whenLockFree_eq_next h
    · obtain ⟨_, h⟩ | ⟨_, rfl⟩ := whenConfigured_eq_next h
      · exact replaceFrame_effect hb h
      · exact .rejects _
    · exact .waits hb rfl
  | fbWriteBegin =>
    have h : execFbWriteBegin s = .next t := h
    obtain ⟨hb, h⟩ | ⟨hb, rfl⟩ := whenLockFree_eq_next h
    · obtain ⟨hv, h⟩ | ⟨_, rfl⟩ := whenConfigured_eq_next h
      · simp at h; subst h; exact .locks hv hb
      · exact .rejects _
    · exact .waits hb rfl
  | fbWriteCommit g =>
    simp only [exec, execFbWriteCommit] at h
    split at h
    · next hb =>
      obtain ⟨F, _, _, h⟩ | ⟨_, rfl⟩ := replaceFrame_eq_next h
      · obtain ⟨hv, ⟨hs, rfl⟩ | ⟨hs, rfl⟩⟩ := installFrame_eq_next h
        · exact .publishes F _ (.inr rfl) hv hs
        · exact .replaces F _ (.inr rfl) hv hs
      · exact .rejectsAndReleases _ hb
    · simp at h
  | fbSnapshot =>
    have h : execFbSnapshot s = .next t := h
    obtain ⟨_, h⟩ | ⟨hb, rfl⟩ := whenLockFree_eq_next h
    · simp at h; subst h; exact .responds _
    · exact .waits hb rfl
  | start =>
    simp only [exec, execStart] at h
    split at h
    · next hv =>
      split at h <;> simp at h <;> subst h
      · exact .responds _
      · exact .starts hv ‹_›
      · exact .responds _
      · exact .responds _
    · simp at h; subst h; exact .rejects _
  | stop => simp [exec, execStop] at h; subst h; exact .stops
  | status => simp [exec, execStatus] at h; subst h; exact .responds _
  | reset => simp only [exec, execReset, Host.Outcome.next.injEq] at h; subst h; exact .resets rfl
  | lightnessCorrect v => simp [exec, execLightnessCorrect] at h; subst h; exact .responds _
  | gammaCorrect v => simp [exec, execGammaCorrect] at h; subst h; exact .responds _
  | _ => simp [Instr.isMicro] at hm

end Sys2Proof.Machine
end

