-- ==== Sys2Proof/Laws/Pack.lean ====
section
/-! SUPPORT. Pack, the masks and the masked bus write, bit by bit. -/

namespace Sys2Proof.Machine

/-- The bits of `w & ~mask`. -/
theorem testBit_withoutBits (w mask : BusWord) (k : Nat) :
    (withoutBits w mask).testBit k = (w.testBit k && !mask.testBit k) := by
  simp only [withoutBits, Nat.testBit_xor, Nat.testBit_and]
  cases w.testBit k <;> cases mask.testBit k <;> rfl

/-- The bits of a masked write (R232): the word's where the mask is set, the old ones elsewhere. -/
theorem testBit_maskedWrite (old word driven : BusWord) (k : Nat) :
    (maskedWrite old word driven).testBit k = if driven.testBit k then word.testBit k else old.testBit k := by
  simp only [maskedWrite, Nat.testBit_or, testBit_withoutBits, Nat.testBit_and]
  cases old.testBit k <;> cases word.testBit k <;> cases driven.testBit k <;> rfl

/-- The one bit of a single-bit mask. -/
theorem bitMask_bit (k j : Nat) : (bitMask k).testBit j = decide (j = k) := by
  simp only [bitMask, Nat.shiftLeft_eq, Nat.one_mul, Nat.testBit_two_pow]
  exact decide_eq_decide.mpr eq_comm

/-- A bit of an or over a list. -/
theorem foldl_or_bit {α : Type} (l : List α) (f : α → BusWord) (w : BusWord) (k : Nat) :
    (l.foldl (fun w i => w ||| f i) w).testBit k = (w.testBit k || l.any fun i => (f i).testBit k) := by
  induction l generalizing w with
  | nil => simp
  | cons a l ih => simp [ih, Bool.or_assoc]

/-- Bit k of Pack(L) (R94). -/
theorem pack_bit (pins : Pins) (L : Lines) (k : Nat) :
    (pack pins L).testBit k = (List.finRange 14).any fun i => decide (k = pins.pos i) && L.word.getLsbD i.val := by
  unfold pack
  rw [foldl_or_bit, Nat.zero_testBit, Bool.false_or]
  congr 1
  funext i
  cases L.word.getLsbD i.val <;> simp [bitMask_bit]

/-- Bit k of the mask of some roles (R135). -/
theorem roleMask_bit (pins : Pins) (l : List (Fin 14)) (k : Nat) :
    (roleMask pins l).testBit k = l.any fun i => decide (k = pins.pos i) := by
  unfold roleMask
  rw [foldl_or_bit]
  simp only [bitMask_bit, Nat.zero_testBit, Bool.false_or]

/-- Bit k of driven_mask (R135). -/
theorem driven_bit (pins : Pins) (k : Nat) :
    (deriveMasks pins).driven.testBit k = (List.finRange 14).any fun i => decide (k = pins.pos i) := by
  have roles : List.finRange 14 = [0, 1, 2, 3, 4, 5, 6, 7, 8, 9, 10, 11, 12, 13] := by decide
  simp only [deriveMasks, Nat.testBit_or, roleMask_bit, bitMask_bit, roles]
  simp [Bool.or_assoc]

/-- Pack sets bits of driven_mask only. -/
theorem pack_and_driven (pins : Pins) (L : Lines) : pack pins L &&& (deriveMasks pins).driven = pack pins L := by
  apply Nat.eq_of_testBit_eq
  intro k
  rw [Nat.testBit_and, pack_bit, driven_bit, Bool.eq_iff_iff]
  simp only [Bool.and_eq_true, List.any_eq_true, decide_eq_true_eq]
  constructor
  · rintro ⟨h, _⟩; exact h
  · rintro ⟨i, hi, he, hw⟩; exact ⟨⟨i, hi, he, hw⟩, i, hi, he⟩

/-- A masked write shows the word in the driven bits (R232). -/
theorem maskedWrite_and (b w d : BusWord) : maskedWrite b w d &&& d = w &&& d := by
  apply Nat.eq_of_testBit_eq
  intro k
  simp only [Nat.testBit_and, testBit_maskedWrite]
  cases d.testBit k <;> simp

/-- A masked write keeps the other bits (R232). -/
theorem withoutBits_maskedWrite (b w d : BusWord) : withoutBits (maskedWrite b w d) d = withoutBits b d := by
  apply Nat.eq_of_testBit_eq
  intro k
  simp only [testBit_withoutBits, testBit_maskedWrite]
  cases d.testBit k <;> simp

/-- A masked write of words of a width has that width (R21). -/
theorem maskedWrite_lt {old word driven : BusWord} {n : Nat} (ho : old < 2 ^ n) (hw : word &&& driven < 2 ^ n) :
    maskedWrite old word driven < 2 ^ n := by
  apply Nat.lt_pow_two_of_testBit
  intro k hk
  have h1 := Nat.testBit_lt_two_pow (Nat.lt_of_lt_of_le ho (Nat.pow_le_pow_right (by omega) hk))
  have h2 := Nat.testBit_lt_two_pow (Nat.lt_of_lt_of_le hw (Nat.pow_le_pow_right (by omega) hk))
  rw [Nat.testBit_and] at h2
  rw [testBit_maskedWrite]
  cases hd : driven.testBit k
  · simpa using h1
  · simpa [hd] using h2

/-- Pack of a legal assignment fits the bus word (R94, R134). -/
theorem pack_lt {pins : Pins} {width n : Nat} (hp : LegalPins pins width) (hw : width ≤ n) (L : Lines) :
    pack pins L < 2 ^ n := by
  apply Nat.lt_pow_two_of_testBit
  intro k hk
  rw [pack_bit, List.any_eq_false]
  intro i _
  have := hp.1 i
  simp only [Bool.and_eq_true, decide_eq_true_eq, not_and]
  omega

/-- Bit i of LW is the line of role i (R92). -/
theorem word_bit (L : Lines) (i : Fin 14) : L.word.getLsbD i.val = roleLine L i := by
  obtain ⟨rgb, addr, clk, lat, oe⟩ := L
  unfold Lines.word
  fin_cases i <;> simp [roleLine, BitVec.getLsbD_ofBool]

/-- A bus write of L under a legal assignment shows L (R232, R94). -/
theorem busShows_drive (pins : Pins) (width : Nat) (hp : LegalPins pins width) (b : BusWord) (L : Lines) :
    BusShows pins b L (maskedWrite b (pack pins L) (deriveMasks pins).driven) := by
  constructor
  · intro i
    have hd : (deriveMasks pins).driven.testBit (pins.pos i) = true := by
      rw [driven_bit, List.any_eq_true]; exact ⟨i, List.mem_finRange i, by simp⟩
    rw [testBit_maskedWrite, hd, if_pos rfl, pack_bit, ← word_bit, Bool.eq_iff_iff, List.any_eq_true]
    constructor
    · rintro ⟨j, _, hj⟩
      simp only [Bool.and_eq_true, decide_eq_true_eq] at hj
      have : i = j := by by_contra hne; exact hp.2 i j hne hj.1
      subst this; exact hj.2
    · intro h; exact ⟨i, List.mem_finRange i, by simp [h]⟩
  · intro k hk
    have hd : (deriveMasks pins).driven.testBit k = false := by
      rw [driven_bit, List.any_eq_false]
      intro i _ h
      exact hk i (of_decide_eq_true h).symm
    rw [testBit_maskedWrite, hd]; simp

end Sys2Proof.Machine
end

