-- ==== Sys2Proof/Laws/PerInstr.lean ====
section
/-! SUPPORT. The family of laws stated per instruction: the first byte of an encoding is the operation code of
30_encoding.md R99 and R100, and tells host operations from micro-operations. -/

namespace Sys2Proof.Laws

/-- The encoding of an operation starts with its code byte, and the codes of the micro-operations are exactly those
from 0x10 to 0x1B (R100). -/
def OpcodeFirst.Statement (i : Instr) : Prop :=
  (encode i).head? = some i.code ∧ (i.isMicro = true ↔ 0x10 ≤ i.code.toNat ∧ i.code.toNat ≤ 0x1B)

theorem OpcodeFirst.configure (pins : Pins) (width depth : Nat) (strategy : Strategy) (chanMap : ChanMap) (dwellUnit : Nat) :
    OpcodeFirst.Statement (.configure pins width depth strategy chanMap dwellUnit) := by
  exact ⟨rfl, by simp [Instr.isMicro, Instr.code]⟩
theorem OpcodeFirst.fbReplace (grid : Grid) : OpcodeFirst.Statement (.fbReplace grid) := by
  exact ⟨rfl, by simp [Instr.isMicro, Instr.code]⟩
theorem OpcodeFirst.fbIngest (grid : Grid) : OpcodeFirst.Statement (.fbIngest grid) := by
  exact ⟨rfl, by simp [Instr.isMicro, Instr.code]⟩
theorem OpcodeFirst.fbWriteBegin : OpcodeFirst.Statement .fbWriteBegin := by
  exact ⟨rfl, by simp [Instr.isMicro, Instr.code]⟩
theorem OpcodeFirst.fbWriteCommit (grid : Grid) : OpcodeFirst.Statement (.fbWriteCommit grid) := by
  exact ⟨rfl, by simp [Instr.isMicro, Instr.code]⟩
theorem OpcodeFirst.fbSnapshot : OpcodeFirst.Statement .fbSnapshot := by
  exact ⟨rfl, by simp [Instr.isMicro, Instr.code]⟩
theorem OpcodeFirst.start : OpcodeFirst.Statement .start := by
  exact ⟨rfl, by simp [Instr.isMicro, Instr.code]⟩
theorem OpcodeFirst.stop : OpcodeFirst.Statement .stop := by
  exact ⟨rfl, by simp [Instr.isMicro, Instr.code]⟩
theorem OpcodeFirst.status : OpcodeFirst.Statement .status := by
  exact ⟨rfl, by simp [Instr.isMicro, Instr.code]⟩
theorem OpcodeFirst.reset : OpcodeFirst.Statement .reset := by
  exact ⟨rfl, by simp [Instr.isMicro, Instr.code]⟩
theorem OpcodeFirst.lightnessCorrect (v : Byte) : OpcodeFirst.Statement (.lightnessCorrect v) := by
  exact ⟨rfl, by simp [Instr.isMicro, Instr.code]⟩
theorem OpcodeFirst.gammaCorrect (v : Byte) : OpcodeFirst.Statement (.gammaCorrect v) := by
  exact ⟨rfl, by simp [Instr.isMicro, Instr.code]⟩
theorem OpcodeFirst.clr : OpcodeFirst.Statement .clr := by
  exact ⟨rfl, by simp [Instr.isMicro, Instr.code]⟩
theorem OpcodeFirst.data (c : Fin 64) : OpcodeFirst.Statement (.data c) := by
  exact ⟨rfl, by simp [Instr.isMicro, Instr.code]⟩
theorem OpcodeFirst.ckh : OpcodeFirst.Statement .ckh := by
  exact ⟨rfl, by simp [Instr.isMicro, Instr.code]⟩
theorem OpcodeFirst.ckl : OpcodeFirst.Statement .ckl := by
  exact ⟨rfl, by simp [Instr.isMicro, Instr.code]⟩
theorem OpcodeFirst.oed : OpcodeFirst.Statement .oed := by
  exact ⟨rfl, by simp [Instr.isMicro, Instr.code]⟩
theorem OpcodeFirst.ltl : OpcodeFirst.Statement .ltl := by
  exact ⟨rfl, by simp [Instr.isMicro, Instr.code]⟩
theorem OpcodeFirst.lth : OpcodeFirst.Statement .lth := by
  exact ⟨rfl, by simp [Instr.isMicro, Instr.code]⟩
theorem OpcodeFirst.adr (r : Fin 32) : OpcodeFirst.Statement (.adr r) := by
  exact ⟨rfl, by simp [Instr.isMicro, Instr.code]⟩
theorem OpcodeFirst.oee : OpcodeFirst.Statement .oee := by
  exact ⟨rfl, by simp [Instr.isMicro, Instr.code]⟩
theorem OpcodeFirst.endCycle : OpcodeFirst.Statement .endCycle := by
  exact ⟨rfl, by simp [Instr.isMicro, Instr.code]⟩
theorem OpcodeFirst.idle : OpcodeFirst.Statement .idle := by
  exact ⟨rfl, by simp [Instr.isMicro, Instr.code]⟩
theorem OpcodeFirst.hold (h : Nat) : OpcodeFirst.Statement (.hold h) := by
  exact ⟨rfl, by simp [Instr.isMicro, Instr.code]⟩

end Sys2Proof.Laws
end

