-- ==== Sys2Proof/Laws/Sequencer.lean ====
section
/-! SUPPORT. The sequencer: the line state of R181 at a position and before it, and where Next leads. -/

namespace Sys2Proof.Machine

/-- Subtracting one from a positive Fin. -/
theorem fin_sub_one_val {n : Nat} [NeZero n] (r : Fin n) (h : 0 < r.val) : (r - 1).val = r.val - 1 := by
  have hn : 1 < n := by have := r.isLt; omega
  have h1 : ((1 : Fin n).val) = 1 := by
    rw [Fin.val_one']; exact Nat.mod_eq_of_lt hn
  rw [Fin.sub_val_of_le, h1]; rw [Fin.le_def, h1]; omega

/-- Adding one below the top of a Fin. -/
theorem fin_add_one_val {n : Nat} [NeZero n] (r : Fin n) (h : r.val + 1 < n) : (r + 1).val = r.val + 1 := by
  have hn : 1 < n := by omega
  have h1 : ((1 : Fin n).val) = 1 := by
    rw [Fin.val_one']; exact Nat.mod_eq_of_lt hn
  rw [Fin.val_add, h1]; exact Nat.mod_eq_of_lt h

/-- The entries of the plane and row of a position. -/
def ent (light : Table) (cfg : Cfg) (F : Frame) (pos : Position) : Fin 64 → Entry :=
  match pos with
  | .body p _ r _ _ => bptEntry light cfg F p r
  | .endCycle => fun _ => 0

/-- The phases of a row (30_encoding.md R97): 0, the 64 column triples, 193 .. 197, and the hold phase. -/
theorem q_cases (q : Fin 199) :
    q = 0 ∨ (∃ c : Fin 64, q.val = 1 + 3 * c.val) ∨ (∃ c : Fin 64, q.val = 2 + 3 * c.val) ∨
    (∃ c : Fin 64, q.val = 3 + 3 * c.val) ∨ q = 193 ∨ q = 194 ∨ q = 195 ∨ q = 196 ∨ q = 197 ∨ q = 198 := by
  revert q; decide +kernel

/-- Apply of the micro-operation of a position on the line state before it gives the line state at it: the closed form
of R181 satisfies the recursion of R180. -/
theorem apply_lineBefore (light : Table) (cfg : Cfg) (F : Frame) (pos : Position)
   (hD : 5 ≤ cfg.depth) (hD8 : cfg.depth ≤ 8)
   (hl : pos.legal cfg = true) (hq : ∀ p n r q h, pos = .body p n r q h → q.val ≠ 198) :
   apply (ent light cfg F pos) pos.microOp (lineBefore light cfg F pos) = lineAt light cfg F pos := by
  cases pos with
  | endCycle => simp [apply, Position.microOp, lineBefore, Position.prev, lineAt, Lines.endCycle]; decide
  | body p n r q h =>
    have hp : p.val < cfg.depth := by simp [Position.legal] at hl; exact hl.1
    have hq' := hq p n r q h rfl
    by_cases hq0 : q = 0
    · subst hq0
      simp only [Position.microOp, phaseDecode, apply, lineBefore, Position.prev]
      by_cases hr : 0 < r.val
      · have : (r == 0) = false := by simp; intro h; subst h; simp at hr
        simp [hr, lineAt, Lines.clr, this]
      · have hr0 : r = 0 := by ext; simp; omega
        subst hr0
        by_cases hn : 0 < n.val
        · have : (n == 0) = false := by simp; intro h; subst h; simp at hn
          simp [hn, lineAt, Lines.clr, this]; rfl
        · have hn0 : n = 0 := by ext; simp; omega
          subst hn0
          by_cases hpd : p.val + 1 < cfg.depth
          · have : (p.val + 1 == cfg.depth) = false := by simp; omega
            simp [hpd, lineAt, Lines.clr, this]; rfl
          · have : p.val + 1 = cfg.depth := by omega
            simp [hpd, lineAt, Lines.clr, Lines.g0, this]
    · have hqp : 0 < q.val := by
        rcases Nat.eq_zero_or_pos q.val with h | h
        · exact absurd (Fin.ext h) hq0
        · exact h
      have hprev : (q - 1).val = q.val - 1 := fin_sub_one_val q hqp
      simp only [lineBefore, Position.prev, hqp, if_true]
      rcases q_cases q with rfl | ⟨c, hc⟩ | ⟨c, hc⟩ | ⟨c, hc⟩ | rfl | rfl | rfl | rfl | rfl | rfl
      · simp at hqp
      · have h1 : (q.val - 1) % 3 = 0 := by omega
        have h2 : ¬ q.val = 0 := by omega
        have h3 : q.val ≤ 192 := by have := c.isLt; omega
        have h4 : ¬ (193 ≤ q.val) := by omega
        have h5 : ¬ (193 ≤ q.val - 1) := by omega
        have h6 : ¬ (196 ≤ q.val) := by omega
        have h7 : ¬ (196 ≤ q.val - 1) := by omega
        have h8 : (q.val != 194) = true := by simp; omega
        have h9 : (q.val - 1 != 194) = true := by simp; omega
        have h10 : decide (1 ≤ q.val - 1 ∧ q.val - 1 ≤ 192 ∧ (q.val - 1 - 1) % 3 = 1) = false := by simp; omega
        simp only [Position.microOp, phaseDecode, apply, lineAt, ent, Lines.data, hprev, h10]
        simp [h1, h2, h3, h4, h5, h6, h7,h8,h9,h10]
      · have h1 : (q.val - 1) % 3 = 1 := by omega
        have h2 : ¬ q.val = 0 := by omega
        have h3 : q.val ≤ 192 := by have := c.isLt; omega
        have h4 : ¬ (193 ≤ q.val) := by omega
        have h5 : ¬ (193 ≤ q.val - 1) := by omega
        have h6 : ¬ (196 ≤ q.val) := by omega
        have h7 : ¬ (196 ≤ q.val - 1) := by omega
        have h8 : (q.val != 194) = true := by simp; omega
        have h9 : (q.val - 1 != 194) = true := by simp; omega
        have h10 : ¬ (q.val - 1 = 0) := by omega
        have h11 : phaseColumn (q - 1) = phaseColumn q := by simp [phaseColumn, hprev]; congr 1; omega
        have h12 : q.val - 1 ≤ 192 := by omega
        have h13 : 1 ≤ q.val := by omega
        simp [Position.microOp, phaseDecode, apply, lineAt, ent, Lines.ckh, hprev,
          h1, h2, h3, h4, h5, h6, h7,h8,h9,h10,h11,h12,h13]
      · have h1 : (q.val - 1) % 3 = 2 := by omega
        have h2 : ¬ q.val = 0 := by omega
        have h3 : q.val ≤ 192 := by have := c.isLt; omega
        have h4 : ¬ (193 ≤ q.val) := by omega
        have h5 : ¬ (193 ≤ q.val - 1) := by omega
        have h6 : ¬ (196 ≤ q.val) := by omega
        have h7 : ¬ (196 ≤ q.val - 1) := by omega
        have h8 : (q.val != 194) = true := by simp; omega
        have h9 : (q.val - 1 != 194) = true := by simp; omega
        have h10 : ¬ (q.val - 1 = 0) := by omega
        have h11 : phaseColumn (q - 1) = phaseColumn q := by simp [phaseColumn, hprev]; congr 1; omega
        have h12 : q.val - 1 ≤ 192 := by omega
        have h13 : 1 ≤ q.val := by omega
        simp [Position.microOp, phaseDecode, apply, lineAt, ent, Lines.ckl, hprev,
          h1, h2, h3, h4, h5, h6, h7,h8,h9,h10,h11,h12,h13]
      all_goals try (simp at hq'; done)
      all_goals simp [Position.microOp, phaseDecode, apply, lineAt, ent, Lines.oed, Lines.ltl, Lines.lth, Lines.adr,
        Lines.oee, phaseColumn]

/-- The hold counter is no part of the line state. -/
theorem lineAt_h (light : Table) (cfg : Cfg) (F : Frame) (p n r q h h') :
    lineAt light cfg F (.body p n r q h) = lineAt light cfg F (.body p n r q h') := rfl

/-- Next of a Timeline body position is reachable, is not the cycle start, and has the line state of the position before
it (R239). -/
theorem lineBefore_next (light : Table) (cfg : Cfg) (F : Frame) (p n r q h)
   (hl : (Position.body p n r q h).legal cfg = true) (ht : cfg.strategy = .timeline) :
    let nx := nextTimeline cfg.depth (.body p n r q h)
    nx.isCycleStart cfg.depth = false ∧ lineBefore light cfg F nx = lineAt light cfg F (.body p n r q h) ∧
    nx.legal cfg = true := by
  simp only [Position.legal, ht, Bool.and_eq_true, decide_eq_true_eq, repeats] at hl
  obtain ⟨hp, hn, hq⟩ := hl
  replace hn := of_decide_eq_true hn
  intro nx
  by_cases h1 : q.val < 197
  · have hv : (q+1).val = q.val + 1 := fin_add_one_val q (by omega)
    have hx : nx = .body p n r (q+1) 0 := by simp [nx, nextTimeline, h1]
    rw [hx]
    refine ⟨?_, ?_, ?_⟩
    · simp [Position.isCycleStart]; intro _ _ _ h; rw [h] at hv; simp at hv
    · have : 0 < (q+1).val := by omega
      simp only [lineBefore, Position.prev, this, if_true]
      rw [show q + 1 - 1 = q by simp]; rfl
    · simp [Position.legal, ht, repeats, hp, hn, hv]; omega
  · have hq7 : q = 197 := by ext; show q.val = 197; omega
    subst hq7
    by_cases h2 : r.val < 31
    · have hv : (r+1).val = r.val + 1 := fin_add_one_val r (by omega)
      have hx : nx = .body p n (r+1) 0 0 := by simp [nx, nextTimeline, h2]
      rw [hx]
      refine ⟨?_, ?_, ?_⟩
      · simp [Position.isCycleStart]; intro _ _ h; rw [h] at hv; simp at hv
      · have : 0 < (r+1).val := by omega
        simp only [lineBefore, Position.prev, this, if_true]
        rw [show r + 1 - 1 = r by simp]; rfl
      · simp [Position.legal, ht, repeats, hp, hn]
    · have hr : r = 31 := by ext; show r.val = 31; omega
      subst hr
      by_cases h3 : n.val + 1 < 2 ^ p.val
      · have h2p : 2 ^ p.val ≤ 128 := by
          have : 2 ^ p.val ≤ 2 ^ 7 := Nat.pow_le_pow_right (by omega) (by omega)
          omega
        have hv : (n+1).val = n.val + 1 := fin_add_one_val n (by omega)
        have hx : nx = .body p (n+1) 0 0 0 := by simp [nx, nextTimeline, repeats, h3]
        rw [hx]
        refine ⟨?_, ?_, ?_⟩
        · simp [Position.isCycleStart]; intro _ h; rw [h] at hv; simp at hv
        · have : 0 < (n+1).val := by omega
          simp only [lineBefore, Position.prev, this, if_true]
          rw [show n + 1 - 1 = n by simp]; rfl
        · simp [Position.legal, ht, repeats, hp, hv]; omega
      · by_cases h4 : 0 < p.val
        · have hv := fin_sub_one_val p h4
          have hx : nx = .body (p-1) 0 0 0 0 := by simp [nx, nextTimeline, repeats, h3, h4]
          rw [hx]
          refine ⟨?_, ?_, ?_⟩
          · simp [Position.isCycleStart, hv]; omega
          · have h5 : (p-1).val + 1 < cfg.depth := by omega
            simp only [lineBefore, Position.prev, h5, if_true]
            rw [show p - 1 + 1 = p by simp]
            have h6 : (p-1).val + 1 = p.val := by omega
            have h7 : Fin.ofNat 128 (2 ^ ((p-1).val+1) - 1) = n := by
              rw [h6]; ext; show (2 ^ p.val - 1) % 128 = n.val
              have h8 : n.val = 2 ^ p.val - 1 := by generalize 2 ^ p.val = z at hn h3 ⊢; omega
              have := n.isLt; rw [← h8]; exact Nat.mod_eq_of_lt this
            simp [h7]; rfl
          · simp [Position.legal, ht, repeats, hv]; omega
        · have hp0 : p = 0 := by ext; show p.val = 0; omega
          subst hp0
          have hn0 : n = 0 := by ext; show n.val = 0; simp at hn; omega
          subst hn0
          have hx : nx = .endCycle := by simp [nx, nextTimeline, repeats]
          rw [hx]
          refine ⟨rfl, ?_, rfl⟩
          simp only [lineBefore, Position.prev]; rfl

/-- The cycle start is the cycle start, reachable, and in no hold. -/
theorem isCycleStart_cycleStart (cfg : Cfg) (hD : 5 ≤ cfg.depth) (hD8 : cfg.depth ≤ 8) :
    (cycleStart cfg.depth).isCycleStart cfg.depth = true ∧ (cycleStart cfg.depth).legal cfg = true ∧
    HoldFits cfg (cycleStart cfg.depth) := by
  have h1 : (Fin.ofNat 8 (cfg.depth - 1)).val = cfg.depth - 1 := by simp [Fin.ofNat]; omega
  refine ⟨?_, ?_, ?_⟩
  · simp [cycleStart, Position.isCycleStart]; simp [Fin.ofNat] at h1; omega
  · simp only [cycleStart, Position.legal, h1]; cases cfg.strategy <;> simp [repeats] <;> omega
  · simp [cycleStart, HoldFits]

/-- As lineBefore_next, for NextRow after the last word or the hold of a Direct row (R246). -/
theorem nextRow_fit (light : Table) (cfg : Cfg) (F : Frame) (p r) (q : Fin 199) (hq : 197 ≤ q.val) (h)
   (hp : p.val < cfg.depth) (ht : cfg.strategy = .direct) (hD8 : cfg.depth ≤ 8) :
    (nextRow p r).isCycleStart cfg.depth = false ∧
    lineBefore light cfg F (nextRow p r) = lineAt light cfg F (.body p 0 r q h) ∧
    (nextRow p r).legal cfg = true ∧ HoldFits cfg (nextRow p r) := by
  have h197 : lineAt light cfg F (.body p 0 r q h) = lineAt light cfg F (.body p 0 r 197 0) := by
    have hne : q.val ≠ 0 := by omega
    have e0 : (q == 0) = false := by simp; intro h; subst h; simp at hq
    have e1 : ¬ q.val ≤ 192 := by omega
    have e2 : 196 ≤ q.val := by omega
    have e3 : 193 ≤ q.val := by omega
    have e4 : ¬ q.val ≤ 196 := by omega
    have e5 : (q.val != 194) = true := by simp; omega
    simp only [lineAt]
    simp [hne, e1, e2, e3, e4, e5, e0]
  rw [h197]
  unfold nextRow
  by_cases h2 : r.val < 31
  · have hv : (r+1).val = r.val + 1 := fin_add_one_val r (by omega)
    simp only [h2, if_true]
    refine ⟨?_, ?_, ?_, ?_⟩
    · simp [Position.isCycleStart]; intro _ h; rw [h] at hv; simp at hv
    · have : 0 < (r+1).val := by omega
      simp only [lineBefore, Position.prev, this, if_true]
      rw [show r + 1 - 1 = r by simp]; rfl
    · simp [Position.legal, ht, hp]
    · simp [HoldFits]
  · have hr : r = 31 := by ext; show r.val = 31; omega
    subst hr
    by_cases h4 : 0 < p.val
    · have hv := fin_sub_one_val p h4
      have e31 : ¬ ((31 : Fin 32).val < 31) := by decide
      simp only [e31, if_false, h4, if_true]
      refine ⟨?_, ?_, ?_, ?_⟩
      · simp [Position.isCycleStart, hv]; omega
      · have h5 : (p-1).val + 1 < cfg.depth := by omega
        simp only [lineBefore, Position.prev, h5, if_true]
        rw [show p - 1 + 1 = p by simp]
        simp [lineAt]
      · simp [Position.legal, ht, hv]; omega
      · simp [HoldFits]
    · have hp0 : p = 0 := by ext; show p.val = 0; omega
      subst hp0
      refine ⟨rfl, ?_, rfl, trivial⟩
      simp [lineBefore, Position.prev]

/-- As lineBefore_next, for a Direct-mode position with q ≤ 197 (R243). -/
theorem nextDirect_fit (light : Table) (cfg : Cfg) (F : Frame) (p r q h)
   (hp : p.val < cfg.depth) (ht : cfg.strategy = .direct) (hD8 : cfg.depth ≤ 8) (hq : q.val ≤ 197) :
    let nx := nextDirect cfg p r q
    nx.isCycleStart cfg.depth = false ∧ lineBefore light cfg F nx = lineAt light cfg F (.body p 0 r q h) ∧
    nx.legal cfg = true ∧ HoldFits cfg nx := by
  intro nx
  by_cases h1 : q.val < 197
  · have hv : (q+1).val = q.val + 1 := fin_add_one_val q (by omega)
    have hx : nx = .body p 0 r (q+1) 0 := by simp [nx, nextDirect, h1]
    rw [hx]
    refine ⟨?_, ?_, ?_, ?_⟩
    · simp [Position.isCycleStart]; intro _ _ h; rw [h] at hv; simp at hv
    · have : 0 < (q+1).val := by omega
      simp only [lineBefore, Position.prev, this, if_true]
      rw [show q + 1 - 1 = q by simp]; rfl
    · simp [Position.legal, ht, hp]
    · simp only [HoldFits]; omega
  · have hq7 : q = 197 := by ext; show q.val = 197; omega
    subst hq7
    by_cases hd : 0 < dwell cfg p
    · have hx : nx = .body p 0 r 198 (dwell cfg p) := by simp [nx, nextDirect, hd]
      rw [hx]
      refine ⟨?_, ?_, ?_, ?_⟩
      · simp [Position.isCycleStart]
      · simp [lineBefore, Position.prev]; rfl
      · simp [Position.legal, ht, hp]
      · simp only [HoldFits]; omega
    · have hx : nx = nextRow p r := by simp [nx, nextDirect, hd]
      rw [hx]
      exact nextRow_fit light cfg F p r 197 (by simp) h hp ht hD8

end Sys2Proof.Machine
end

