-- ==== Sys2Proof/Laws/Tick.lean ====
section
/-! SUPPORT. What one tick of a running engine does: the inversion of TickTimeline (R236) and TickDirect (R243), and
of one step. -/

namespace Sys2Proof.Machine

/-- The phase decode selects micro-operations only (R97). -/
theorem microOp_micro (pos : Position) : pos.microOp.isMicro = true := by
  cases pos with
  | endCycle => rfl
  | body p n r q h =>
    simp only [Position.microOp, phaseDecode]
    split; rfl
    split
    · split <;> rfl
    · split <;> rfl

/-- HOLD is selected in the hold phase only (R97). -/
theorem microOp_not_hold (pos : Position) (hq : ∀ p n r q h, pos = .body p n r q h → q.val ≠ 198) : ∀ k, pos.microOp ≠ .hold k := by
  intro k
  cases pos with
  | endCycle => simp [Position.microOp]
  | body p n r q h =>
    have := hq p n r q h rfl
    simp only [Position.microOp, phaseDecode]
    split; simp
    split
    · split <;> simp
    · have h5 := q.isLt
      have : q.val = 193 ∨ q.val = 194 ∨ q.val = 195 ∨ q.val = 196 ∨ q.val = 197 := by omega
      rcases this with h | h | h | h | h <;> simp [h]

/-- DATA is selected at body positions only (R97). -/
theorem data_body (pos : Position) (c) (h : pos.microOp = .data c) : pos ≠ .endCycle := by
  intro he; subst he; simp [Position.microOp] at h

/-- The two spellings of the entries a DATA step reads. -/
theorem rowEntries_eq (s : State) : rowEntries s = ent s.light s.cfg s.actFrame s.seq := by
  unfold rowEntries ent; split <;> simp_all

/-- The Timeline tick drives the closed form of its position and advances (R236, R181). -/
theorem tickTimeline_eq {s : State} (hc : Configured s) (ht : s.cfg.strategy = .timeline) (hl : s.seq.legal s.cfg = true) :
   let s1 := if s.seq.isCycleStart s.cfg.depth then adopt s else s
   tickTimeline s = .next { drive (lineAt s.light s.cfg s1.actFrame s.seq) s1 with seq := nextTimeline s.cfg.depth s.seq } := by
  intro s1
  have e1 : s1.light = s.light := by simp only [s1]; split <;> simp
  have e2 : s1.cfg = s.cfg := by simp only [s1]; split <;> simp
  have e3 : s1.seq = s.seq := by simp only [s1]; split <;> simp
  have e4 : s1.cfgValid = true := by simp only [s1]; split <;> simp [hc.1]
  have hq : ∀ p n r q h, s.seq = .body p n r q h → q.val ≠ 198 := by
    intro p n r q h he; rw [he] at hl; simp [Position.legal, ht] at hl; omega
  unfold tickTimeline
  show thenDo (exec s1.seq.microOp { s1 with lines := lineBefore s1.light s1.cfg s1.actFrame s1.seq }) _ = _
  have ex := exec_micro_next (i := s1.seq.microOp) (s := { s1 with lines := lineBefore s1.light s1.cfg s1.actFrame s1.seq }) (microOp_micro _) (microOp_not_hold _ (by rw [e3]; exact hq)) (fun c h => data_body _ c h) e4
  rw [ex, rowEntries_eq]
  simp only [thenDo_next, e1, e2, e3]
  rw [apply_lineBefore _ _ _ _ hc.2.1.2.2.1 hc.2.1.2.2.2.1 hl hq]
  simp [drive, e1, e2, e3]

/-- The Direct tick outside the hold phase drives the same line state (R243, R185). -/
theorem tickDirect_eq {s : State} (h : Inv s) (hr : s.run = .running) (hc : Configured s) (ht : s.cfg.strategy = .direct)
    (hq : ∀ p n r q h, s.seq = .body p n r q h → q.val ≠ 198) :
   let s1 := if s.seq.isRowStart then acquire s else s
   tickDirect s = .next { drive (lineAt s.light s.cfg s1.actFrame s.seq) s1 with
      seq := match s.seq with | .endCycle => cycleStart s.cfg.depth | .body p n r q h => nextDirect s.cfg p r q } := by
  intro s1
  obtain ⟨hl, _⟩ := h.running_position hr
  have hf := h.running_lines hr
  have e1 : s1.light = s.light := by simp only [s1]; split <;> simp
  have e2 : s1.cfg = s.cfg := by simp only [s1]; split <;> simp
  have e3 : s1.seq = s.seq := by simp only [s1]; split <;> simp
  have e4 : s1.cfgValid = true := by simp only [s1]; split <;> simp [hc.1]
  have e5 : s1.lines = s.lines := by simp only [s1]; split <;> simp
  have e6 : s1.masks = s.masks := by simp only [s1]; split <;> simp
  have hD := hc.2.1.2.2.1
  have hD8 := hc.2.1.2.2.2.1
  have key := fun F => apply_lineBefore s.light s.cfg F s.seq hD hD8 hl hq
  cases hseq : s.seq with
  | endCycle =>
    have hs1 : s1 = s := by simp [s1, hseq, Position.isRowStart]
    have hcs : s.seq.isCycleStart s.cfg.depth = false := by rw [hseq]; rfl
    simp only [LinesFit, hcs] at hf
    have hf : s.lines = lineBefore s.light s.cfg s.actFrame s.seq := by simpa using hf
    simp only [tickDirect, hseq]
    rw [exec_micro_next (i := .endCycle) rfl (fun _ h => nomatch h) (fun _ h => nomatch h) hc.1]
    rw [hs1]
    have k := key s.actFrame
    rw [← hf, hseq] at k
    simp only [Position.microOp] at k
    rw [rowEntries_eq, hseq, k]
    rfl
  | body p n r q k =>
    have hq198 : q.val ≠ 198 := hq p n r q k hseq
    have hcs : (Position.body p n r q k).isRowStart = decide (q.val = 0) := by
      show (q == 0) = decide (q.val = 0)
      rw [Bool.eq_iff_iff, beq_iff_eq, decide_eq_true_iff, Fin.ext_iff]; rfl
    have hs1 : s1 = if q.val = 0 then acquire s else s := by simp only [s1, hseq, hcs]; simp
    simp only [tickDirect, hseq]
    rw [if_neg hq198, ← hs1]
    have kk := key s1.actFrame
    rw [hseq] at kk
    by_cases hst : (Position.body p n r q k).isCycleStart s.cfg.depth = true
    · rw [if_pos hst]
      have hb : lineBefore s.light s.cfg s1.actFrame (.body p n r q k) = Lines.g0 := by
        simp [Position.isCycleStart] at hst
        have : ¬ (p.val + 1 < s.cfg.depth) := by omega
        simp [lineBefore, Position.prev, hst.1.1.2, hst.1.2, hst.2, this]
      have ex := exec_micro_next (i := (Position.body p n r q k).microOp) (s := { s1 with lines := Lines.g0 }) (microOp_micro _) (microOp_not_hold _ (by intro p' n' r' q' h' he; cases he; exact hq198)) (fun c h => by simp [e3, hseq]) e4
      rw [ex, rowEntries_eq]
      simp only [e1, e2, e3, hseq, thenDo_next]
      rw [← hb, kk]
      simp [drive, e1, e2]
    · rw [if_neg hst]
      have hst' : (Position.body p n r q k).isCycleStart s.cfg.depth = false := by simpa using hst
      simp only [LinesFit, hseq, hst'] at hf
      have hf : s.lines = lineBefore s.light s.cfg s.actFrame (.body p n r q k) := by simpa using hf
      rw [exec_micro_next (microOp_micro _) (microOp_not_hold _ (by intro p' n' r' q' h' he; cases he; exact hq198)) (fun c h => by simp [e3, hseq]) e4]
      rw [rowEntries_eq]
      simp only [e1, e2, e3, hseq, e5]
      have : apply (ent s.light s.cfg s1.actFrame (.body p n r q k)) (Position.body p n r q k).microOp s.lines = lineAt s.light s.cfg s1.actFrame (.body p n r q k) := by
        by_cases hq0 : q.val = 0
        · have hqq : q = 0 := Fin.ext hq0
          rw [← kk, hf]
          subst hqq
          -- CLR only
          have ind : ∀ F G : Frame, (lineBefore s.light s.cfg F (.body p n r 0 k)).clr = (lineBefore s.light s.cfg G (.body p n r 0 k)).clr := by
            intro F G
            unfold lineBefore
            cases hp : Position.prev s.cfg.depth (.body p n r 0 k) with
            | none => rfl
            | some pos => cases pos <;> simp [lineAt, Lines.clr]
          simp only [Position.microOp, phaseDecode, apply]
          simpa using ind _ _
        · have : s1 = s := by rw [hs1, if_neg hq0]
          rw [this] at kk ⊢
          rw [hf]; exact kk
      rw [this]
      simp [drive, e1, e2]

/-- A tick of the hold phase (R243, R212). -/
theorem tickDirect_hold {s : State} (hv : s.cfgValid = true) (p n r q k) (hseq : s.seq = .body p n r q k) (hq : q.val = 198) :
   tickDirect s = .next { s with seq := if 1 < k then .body p n r 198 (k-1) else nextRow p r, trace := .hold :: s.trace } := by
  simp only [tickDirect, hseq, if_pos hq, exec, execHold, atPosition_of_valid hv]

/-- What one step can do: the scheduled agent's step; with nothing scheduled, the first waiting operation where the lock
is free, else a tick (00_scope.md R7; log entry 3). -/
theorem step_eq_next {s t : State} (h : step s = .next t) :
    (∃ a later, s.schedule = a :: later ∧ agentStep a { s with schedule := later } = .next t) ∨
    (s.schedule = [] ∧ s.fbBusy = false ∧
      ∃ i rest, s.waiting = i :: rest ∧ exec i { s with waiting := rest } = .next t) ∨
    (s.schedule = [] ∧ (s.waiting = [] ∨ s.fbBusy = true) ∧ tick s = .next t) := by
  simp only [step, nextStep] at h
  split at h
  · next hs =>
    simp only [unscheduledStep, lockFree] at h
    split at h
    · next hw => exact .inr (.inr ⟨hs, .inl hw, h⟩)
    · next i rest hw =>
      cases hb : s.fbBusy with
      | false => exact .inr (.inl ⟨hs, rfl, i, rest, hw, by simpa [hb, resumeStep, hw, lockFree] using h⟩)
      | true => exact .inr (.inr ⟨hs, .inr rfl, by simpa [hb] using h⟩)
  · next a later hs => exact .inl ⟨a, later, hs, h⟩

end Sys2Proof.Machine
end

