-- ==== Sys2Proof/Tests/Slice0.lean ====
section
/-! SUPPORT. Tests: the refusals of the well-formedness check, every operation's decoding from bytes written out from
its code (30_encoding.md R99, R100), single steps on the vectors of 95_test_vectors.md (derived there from the rules),
and, for every statement with hypotheses, a state and operands that meet them. -/

namespace Sys2Proof.Tests

open Sys2Proof Sys2Proof.Machine

/-! ## Fixtures (95_test_vectors.md part 1) -/

/-- LIGHT_ID. -/
def idTable : Table := Table.ofFn fun v => BitVec.ofNat 8 v

/-- LIGHT_SQ. -/
def sqTable : Table := Table.ofFn fun v => BitVec.ofNat 8 (v * v / 255)

/-- PA_ID. -/
def idPins : Pins := ⟨0, 1, 2, 3, 4, 5, 6, 7, 8, 9, 10, 11, 12, 13⟩

/-- PA_SCAT. -/
def scatPins : Pins := ⟨25, 26, 27, 14, 12, 13, 23, 19, 5, 17, 18, 16, 4, 15⟩

/-- The pins of vector X1: R1 and LAT at bit 5. -/
def clashPins : Pins := ⟨5, 1, 2, 3, 4, 0, 6, 7, 8, 9, 10, 11, 5, 13⟩

def rgbMap : ChanMap := ⟨.red, .green, .blue⟩

/-- PA_ID, W = 32, the identity map, dwell unit 2. -/
def idCfg (strategy : Strategy) (depth : Nat) : Cfg := ⟨32, idPins, depth, strategy, rgbMap, 2⟩

def uniformGrid (p : Pixel) : Grid := ⟨64, 64, List.replicate 4096 p⟩

/-- A configured idle block with D = 5 and identity tables. -/
def parked (strategy : Strategy) : State :=
  { State.reset with
    light := idTable, gamma := idTable, cfg := idCfg strategy 5, masks := deriveMasks idPins, cfgValid := true,
    bus := pack idPins Lines.g0 }

/-- The block running at a position, with the lines the program gives it and an agent's step scheduled. -/
def runningAt (strategy : Strategy) (pos : Position) (agents : List AgentStep) : State :=
  let lines := lineBefore idTable (idCfg strategy 5) Frame.blank pos
  { parked strategy with run := .running, seq := pos, lines := lines, bus := pack idPins lines, schedule := agents }

/-- The outcome of a step, its state read by f. -/
def after {α : Type} (o : Answer) (f : State → α) : Option α :=
  match o with
  | .next t => some (f t)
  | .fault _ => none
  | .refused _ => none

/-! ## Well-formedness -/

/-- A grid that does not carry w×h pixels is refused (U15). -/
theorem test_wf_refuses_short_grid : (Instr.fbReplace ⟨2, 1, [⟨0, 0, 0⟩]⟩).wf = false := by decide

theorem test_wf_refuses_long_ingest : (Instr.fbIngest ⟨0, 0, [⟨0, 0, 0⟩]⟩).wf = false := by decide

theorem test_wf_refuses_short_commit : (Instr.fbWriteCommit ⟨1, 1, []⟩).wf = false := by decide

theorem test_wf_accepts_whole_grid : (Instr.fbReplace ⟨2, 1, [⟨0, 0, 0⟩, ⟨1, 1, 1⟩]⟩).wf = true := by decide

/-- The machine refuses a 64×64 grid without its pixels by name. -/
theorem test_malformed_grid_refused :
    exec (.fbReplace ⟨64, 64, []⟩) (parked .timeline) = .refused .malformedGrid := by rfl

/-! ## Decoding: the code byte of R99 and R100, then the operands -/

theorem test_decode_configure :
    decode [0x01, 0, 1, 2, 3, 4, 5, 6, 7, 8, 9, 10, 11, 12, 13, 32, 5, 1, 2, 1, 0, 0x80, 0x01, 0xAA] =
      .ok (.configure idPins 32 5 .direct ⟨.blue, .green, .red⟩ 128, [0xAA]) := by rfl

theorem test_decode_fb_replace :
    decode [0x02, 2, 1, 1, 2, 3, 4, 5, 6] = .ok (.fbReplace ⟨2, 1, [⟨1, 2, 3⟩, ⟨4, 5, 6⟩]⟩, []) := by rfl

theorem test_decode_fb_ingest :
    decode [0x03, 1, 1, 7, 8, 9, 0] = .ok (.fbIngest ⟨1, 1, [⟨7, 8, 9⟩]⟩, [0]) := by rfl

theorem test_decode_fb_write_begin : decode [0x04] = .ok (.fbWriteBegin, []) := by rfl

theorem test_decode_fb_write_commit : decode [0x05, 0, 200, 1] = .ok (.fbWriteCommit ⟨0, 200, []⟩, []) := by rfl

theorem test_decode_fb_snapshot : decode [0x06] = .ok (.fbSnapshot, []) := by rfl

theorem test_decode_start : decode [0x07] = .ok (.start, []) := by rfl

theorem test_decode_stop : decode [0x08] = .ok (.stop, []) := by rfl

theorem test_decode_status : decode [0x09] = .ok (.status, []) := by rfl

theorem test_decode_reset : decode [0x0A] = .ok (.reset, []) := by rfl

theorem test_decode_lightness_correct : decode [0x20, 0xB4] = .ok (.lightnessCorrect 0xB4, []) := by rfl

theorem test_decode_gamma_correct : decode [0x21, 0xC8] = .ok (.gammaCorrect 0xC8, []) := by rfl

theorem test_decode_clr : decode [0x10] = .ok (.clr, []) := by rfl

theorem test_decode_data : decode [0x11, 63] = .ok (.data 63, []) := by rfl

theorem test_decode_data_column_range : decode [0x11, 64] = .error (.columnRange 64) := by rfl

theorem test_decode_ckh : decode [0x12] = .ok (.ckh, []) := by rfl

theorem test_decode_ckl : decode [0x13] = .ok (.ckl, []) := by rfl

theorem test_decode_oed : decode [0x14] = .ok (.oed, []) := by rfl

theorem test_decode_ltl : decode [0x15] = .ok (.ltl, []) := by rfl

theorem test_decode_lth : decode [0x16] = .ok (.lth, []) := by rfl

theorem test_decode_adr : decode [0x17, 31] = .ok (.adr 31, []) := by rfl

theorem test_decode_adr_row_range : decode [0x17, 32] = .error (.rowRange 32) := by rfl

theorem test_decode_oee : decode [0x18] = .ok (.oee, []) := by rfl

theorem test_decode_end : decode [0x19] = .ok (.endCycle, []) := by rfl

theorem test_decode_idle : decode [0x1A] = .ok (.idle, []) := by rfl

theorem test_decode_hold : decode [0x1B, 0x87, 0x02] = .ok (.hold 263, []) := by rfl

theorem test_decode_unknown : decode [0x0B] = .error (.unknownOperation 0x0B) := by rfl

/-! ## Vectors of 95_test_vectors.md -/

/-- V9, V11. -/
theorem test_lightness_square :
    after (exec (.lightnessCorrect 100) { parked .timeline with light := sqTable }) (fun t => t.result) =
      some (.value 39) := by decide +kernel

/-- V14. -/
theorem test_gamma_square :
    after (exec (.gammaCorrect 200) { parked .timeline with gamma := sqTable }) (fun t => t.result) =
      some (.value 156) := by decide +kernel

/-- K2. -/
theorem test_masks_scattered :
    deriveMasks scatPins = ⟨0x0E007000, 0x008E0020, 0x00010000, 0x00000010, 0x00008000, 0x0E8FF030⟩ := by decide +kernel

/-- K3. -/
theorem test_pack_scattered :
    [0x3000, 0x1049, 0x1849, 0x2049, 0x3089, 0x37C9, 0x107F, 0x3FFF].map (fun w => pack scatPins (Lines.ofWord w)) =
      [0x00008010, 0x02804010, 0x02814010, 0x0280C000, 0x0208C010, 0x028EC030, 0x0E807010, 0x0E8FF030] := by
  decide +kernel

/-- K4. -/
theorem test_masked_write : maskedWrite 0xA5A5A5A5 0x02804010 0x0E8FF030 = 0xA3A04595 := by decide

/-- X1. -/
theorem test_configure_collision :
    after (exec (.configure clashPins 32 5 .timeline rgbMap 0) State.reset) (fun t => (t.err, t.cfgValid)) =
      some (⟨1, 2, 0, 12⟩, false) := by decide +kernel

/-- D2: a platform whose register has 64 bits accepts W = 41 with a role at bit 40. -/
theorem test_configure_wide_register :
    after (exec (.configure { idPins with oe := 40 } 41 5 .timeline rgbMap 0) { State.reset with wMax := 64 })
      (fun t => (t.bus, t.masks.oe)) = some (0x10000001000, 0x10000000000) := by decide +kernel

/-- X10: OUT_OF_RANGE before COLLISION. -/
theorem test_configure_range_first :
    after (exec (.configure { idPins with r1 := 40, b1 := 1 } 32 5 .timeline rgbMap 0) State.reset) (fun t => t.err) =
      some ⟨1, 1, 0, 40⟩ := by decide +kernel

/-- X7: the bus event 0x3000. -/
theorem test_configure_first_word :
    after (exec (.configure idPins 14 5 .timeline rgbMap 0) State.reset) (fun t => (t.bus, t.trace)) =
      some (0x3000, [.write 0x3000]) := by decide +kernel

/-- E1. -/
theorem test_slice :
    ([4, 3, 2, 1, 0].map (slice 5 0xB4) = [true, false, true, true, false]) ∧ slice 6 0x04 0 = true := by decide

/-- E2: upper pixel (255, 0, 128), lower pixel (0, 8, 0), at D = 5. -/
theorem test_entry :
    let F : Frame := ⟨List.replicate 199 ⟨0, 0, 0⟩ ++ [⟨255, 0, 128⟩] ++ List.replicate 2047 ⟨0, 0, 0⟩ ++
      [⟨0, 8, 0⟩] ++ List.replicate 1848 ⟨0, 0, 0⟩, by decide +kernel⟩
    bptEntry idTable (idCfg .timeline 5) F 4 3 7 = 0x05 ∧ bptEntry idTable (idCfg .timeline 5) F 0 3 7 = 0x11 := by
  decide +kernel

/-- M4 to M15: the words before and after. -/
theorem test_line_words :
    ((Lines.ofWord 0x1059).clr.word, (Lines.ofWord 0x1059).ckh.word, (Lines.ofWord 0x1859).ckl.word,
      (Lines.ofWord 0x1059).oed.word, (Lines.ofWord 0x3059).ltl.word, (Lines.ofWord 0x2059).lth.word) =
      (0x1040, 0x1859, 0x1059, 0x3059, 0x2059, 0x3059) ∧
    (((Lines.ofWord 0x3059).adr 2).word, ((Lines.ofWord 0x3789).adr 31).word, (Lines.ofWord 0x3099).oee.word,
      (Lines.ofWord 0x17C9).endCycle.word, ((Lines.ofWord 0x1059).data 0).word) =
      (0x3099, 0x37C9, 0x1099, 0x37C9, 0x1040) := by decide +kernel

/-- M16. -/
theorem test_idle_word :
    after (exec .idle { parked .timeline with lines := Lines.ofWord 0x3049, bus := 0xFFFFFFFF }) 
      (fun t => (t.lines.word, t.bus)) = some (0x3000, 0xFFFFF000) := by decide +kernel

/-- M17, M18. -/
theorem test_hold :
    after (exec (.hold 7) { parked .direct with seq := .body 2 0 2 198 7 }) (fun t => (t.seq, t.bus)) =
      some (.body 2 0 2 198 6, 0x3000) ∧
    after (exec (.hold 1) { parked .direct with seq := .body 2 0 2 198 1 }) (fun t => t.seq) =
      some (.body 2 0 3 0 0) := by decide +kernel

/-- Q5 to Q10. -/
theorem test_next_positions :
    [.body 4 0 0 197 0, .body 4 0 31 197 0, .body 4 15 31 197 0, .body 1 1 31 197 0, .body 0 0 31 197 0,
      .endCycle].map (nextTimeline 5) =
      [.body 4 0 1 0 0, .body 4 1 0 0 0, .body 3 0 0 0 0, .body 0 0 0 0 0, .endCycle, .body 4 0 0 0 0] := by
  decide +kernel

/-- Q1, Q2. -/
theorem test_start_depth_8 :
    after (exec .start { parked .timeline with cfg := idCfg .timeline 8, stopreq := true })
      (fun t => (t.run, t.seq, t.stopreq, t.trace)) = some (.running, .body 7 0 0 0 0, false, []) := by decide +kernel

/-- Q4. -/
theorem test_stop_idle :
    after (exec .stop (parked .timeline)) (fun t => (t.stopreq, t.run, t.trace)) = some (true, .idle, []) := by
  decide +kernel

/-- Q18: the clock line stays high. -/
theorem test_fault_word :
    after (agentStep (.envFault 7) { runningAt .timeline (.body 4 0 1 2 0) [] with lines := Lines.ofWord 0x1809 })
      (fun t => (t.lines.word, t.run, t.err)) = some (0x3809, .faulted, ⟨3, 7, 0, 0⟩) := by decide +kernel

/-- X14: ERR keeps the fault record. -/
theorem test_fault_record_held :
    after (exec (.fbReplace ⟨1, 1, [⟨0, 0, 0⟩]⟩) { parked .timeline with run := .faulted, err := ⟨3, 7, 0, 0⟩ })
      (fun t => (t.err, t.result)) = some (⟨3, 7, 0, 0⟩, .error ⟨2, 1, 1, 1⟩) := by decide +kernel

/-- F8: rejected, the lock released. -/
theorem test_commit_rejected :
    after (exec (.fbWriteCommit ⟨64, 32, []⟩) { parked .timeline with fbBusy := true })
      (fun t => (t.result, t.fbBusy, t.fbGen)) = some (.error ⟨2, 1, 64, 32⟩, false, 0) := by decide +kernel

/-- P1, step 8: STATUS. -/
theorem test_status :
    after (exec .status { parked .timeline with stopreq := true, fbGen := 1, actGen := 1 }) (fun t => t.result) =
      some (.status ⟨0, true, true, false, false, 1, 1⟩ ⟨0, 0, 0, 0⟩) := by decide +kernel

/-- P5, step 9: RESET leaves BUS. -/
theorem test_reset_keeps_bus :
    after (exec .reset { parked .timeline with bus := 0x3809, run := .faulted, err := ⟨3, 7, 0, 0⟩ })
      (fun t => (t.bus, t.run, t.cfgValid, t.err)) = some (0x3809, .idle, false, ⟨0, 0, 0, 0⟩) := by decide +kernel

/-- U10, R309: after a RESET of a running block EXT leaves the formerly driven bits and sets the others. -/
theorem test_reset_freezes_lines :
    after (thenDo (exec .reset { parked .timeline with bus := 0x1809, run := .running }) (extWrite 0xFFFF))
      (fun t => t.bus) = some 0xD809 := by decide +kernel

/-- F5. -/
theorem test_write_begin :
    after (exec .fbWriteBegin (parked .direct)) (fun t => (t.fbBusy, t.fbGen, t.pendValid)) = some (true, 0, false) := by
  decide +kernel

/-- F1, and F3d's Direct-mode replacement. -/
theorem test_replace_publishes :
    after (exec (.fbReplace (uniformGrid ⟨255, 0, 0⟩)) (parked .timeline)) (fun t => (t.fbGen, t.pendValid, t.actGen)) =
      some (1, true, 0) ∧
    after (exec (.fbReplace (uniformGrid ⟨255, 0, 0⟩)) (parked .direct)) (fun t => (t.fbGen, t.pendValid, t.actGen)) =
      some (1, false, 0) := by decide +kernel

/-- T5 and R187: DATA of the blank frame at the second column of the top plane. -/
theorem test_data_word :
    after (exec (.data 1) { parked .timeline with seq := .body 4 0 0 4 0, actFrame := Frame.uniform ⟨255, 0, 0⟩ })
      (fun t => t.lines.word) = some 0x3009 := by decide +kernel

/-! ## Witnesses: for each statement with hypotheses, a state and operands that meet them -/

theorem idTable_read : ∀ v : Byte, idTable.read v = v := by decide +kernel

/-- Admissible tables: LIGHT_ID. -/
theorem witness_admissible : Admissible idTable :=
  ⟨idTable_read 0, idTable_read 255, fun a b h => by rw [idTable_read, idTable_read]; exact h⟩

theorem idPins_legal : LegalPins idPins 32 := ⟨by decide, by decide⟩

theorem idCfg_legal (strategy : Strategy) (depth : Nat) (h : 5 ≤ depth) (h' : depth ≤ 8) :
    LegalCfg 32 (idCfg strategy depth) :=
  ⟨Nat.le_refl 32, ⟨idPins_legal.1, idPins_legal.2⟩, h, h', by simp [idCfg, rgbMap], by simp [idCfg, rgbMap],
    by simp [idCfg, rgbMap]⟩

theorem idCfg_five (strategy : Strategy) : LegalCfg 32 (idCfg strategy 5) :=
  idCfg_legal strategy 5 (by omega) (by omega)

theorem parked_configured (strategy : Strategy) : Configured (parked strategy) :=
  ⟨rfl, idCfg_five strategy, rfl⟩

/-- Inv of the fixture in IDLE. -/
theorem parked_inv (strategy : Strategy) : Inv (parked strategy) where
  bus_width := pack_lt (n := 32) idPins_legal (Nat.le_refl 32) Lines.g0
  tables := ⟨witness_admissible, witness_admissible⟩
  configured := fun _ => ⟨rfl, idCfg_five strategy, rfl⟩
  bus_lines := fun _ => pack_and_driven idPins Lines.g0
  active_configured := fun _ => rfl
  idle_rest := fun _ => rfl
  running_position := by intro h; cases h
  running_lines := by intro h; cases h
  stopping_rest := by intro h; cases h
  faulted_dark := by intro h; cases h
  lock_configured := by intro h; cases h
  pend_newest := by intro h; cases h
  act_not_newer := ⟨Nat.le_refl _, fun _ => rfl⟩
  unconfigured_blank := by intro h; cases h
  waiting_ops := by intro i h; cases h

/-- Inv of the fixture at a reachable position outside a hold. -/
theorem runningAt_inv (strategy : Strategy) (pos : Position) (agents : List AgentStep)
    (hl : pos.legal (idCfg strategy 5) = true) (hh : HoldFits (idCfg strategy 5) pos)
    (hs : pos.isCycleStart 5 = true → lineBefore idTable (idCfg strategy 5) Frame.blank pos = Lines.g0) :
    Inv (runningAt strategy pos agents) where
  bus_width := pack_lt (n := 32) idPins_legal (Nat.le_refl 32) _
  tables := ⟨witness_admissible, witness_admissible⟩
  configured := fun _ => ⟨rfl, idCfg_five strategy, rfl⟩
  bus_lines := fun _ => pack_and_driven idPins _
  active_configured := fun _ => rfl
  idle_rest := by intro h; cases h
  running_position := fun _ => ⟨hl, hh⟩
  running_lines := by
    intro _
    unfold LinesFit
    split
    · next hc => exact ⟨congrArg Lines.clk (hs hc), congrArg Lines.lat (hs hc), congrArg Lines.oe (hs hc)⟩
    · rfl
  stopping_rest := by intro h; cases h
  faulted_dark := by intro h; cases h
  lock_configured := by intro h; cases h
  pend_newest := by intro h; cases h
  act_not_newer := ⟨Nat.le_refl _, fun _ => rfl⟩
  unconfigured_blank := by intro h; cases h
  waiting_ops := by intro i h; cases h

/-- The stop flag and the schedule are free in the invariant. -/
theorem inv_asked {s : State} (h : Inv s) (stop : Bool) (agents : List AgentStep) :
    Inv { s with stopreq := stop, schedule := agents } := { h with }

/-- A newer frame in the frame buffer, not shown yet. -/
theorem inv_replaced {s : State} (h : Inv s) (hv : s.cfgValid = true) (hd : s.cfg.strategy = .direct) (F : Frame) :
    Inv { s with fbFrame := F, fbGen := s.fbGen + 1 } :=
  { h with
    pend_newest := fun hp => by have := (h.pend_newest hp).2.1; simp [hd] at this
    act_not_newer := ⟨Nat.le_succ_of_le h.act_not_newer.1, fun he => absurd he (by have := h.act_not_newer.1; simp; omega)⟩
    unconfigured_blank := fun hn => by simp [hv] at hn }

/-- A newer frame published and pending. -/
theorem inv_published {s : State} (h : Inv s) (hv : s.cfgValid = true) (ht : s.cfg.strategy = .timeline) (F : Frame) :
    Inv { s with
      fbFrame := F, fbGen := s.fbGen + 1, pendFrame := F, pendGen := s.fbGen + 1, pendValid := true } :=
  { h with
    pend_newest := fun _ => ⟨hv, ht, rfl, rfl⟩
    act_not_newer := ⟨Nat.le_succ_of_le h.act_not_newer.1, fun he => absurd he (by have := h.act_not_newer.1; simp; omega)⟩
    unconfigured_blank := fun hn => by simp [hv] at hn }

/-- An idle block that has shown a newer frame. -/
theorem inv_shown {s : State} (h : Inv s) (hv : s.cfgValid = true) (hr : s.run = .idle) (hp : s.pendValid = false)
    (F : Frame) : Inv { s with fbFrame := F, fbGen := s.fbGen + 1, actFrame := F, actGen := s.fbGen + 1 } :=
  { h with
    running_lines := fun hx => by simp [hr] at hx
    pend_newest := fun hx => by simp [hp] at hx
    act_not_newer := ⟨Nat.le_refl _, fun _ => rfl⟩
    unconfigured_blank := fun hn => by simp [hv] at hn }

/-- The invariant holds of running blocks in both strategies, at the cycle start, inside a row, in a hold, at End. -/
theorem witness_inv_running :
    Inv (runningAt .timeline (.body 4 0 0 0 0) [.tick]) ∧ Inv (runningAt .direct (.body 4 0 0 0 0) [.tick]) ∧
    Inv (runningAt .timeline (.body 4 15 31 197 0) [.tick]) ∧ Inv (runningAt .direct (.body 3 0 31 196 0) [.tick]) ∧
    Inv (runningAt .direct (.body 4 0 31 198 32) [.tick]) ∧ Inv (runningAt .direct .endCycle [.tick]) :=
  ⟨runningAt_inv _ _ _ (by decide) (fun h => absurd h (by decide)) (fun _ => by rfl),
    runningAt_inv _ _ _ (by decide) (fun h => absurd h (by decide)) (fun _ => by rfl),
    runningAt_inv _ _ _ (by decide) (fun h => absurd h (by decide)) (fun h => by simp [Position.isCycleStart] at h),
    runningAt_inv _ _ _ (by decide) (fun h => absurd h (by decide)) (fun h => by simp [Position.isCycleStart] at h),
    runningAt_inv _ _ _ (by decide) (fun _ => by decide) (fun h => by simp [Position.isCycleStart] at h),
    runningAt_inv _ _ _ (by decide) trivial (fun h => by simp [Position.isCycleStart] at h)⟩

/-- TopBitsMonotone, both ends of the depth range. -/
theorem witness_TopBitsMonotone : Admissible idTable ∧ (5 ≤ 5 ∧ 5 ≤ 8) ∧ (5 ≤ 8 ∧ 8 ≤ 8) :=
  ⟨witness_admissible, by omega, by omega⟩

/-- SeededTablesAreTheAdmissibleOnes, second part. -/
theorem witness_SeededTables : ∃ t : Table, Admissible t := ⟨idTable, witness_admissible⟩

/-- MasksPartitionDrivenBits and UnpackInvertsPack: the narrowest width, and the widest with scattered pins. -/
theorem witness_LegalPins : LegalPins idPins 14 ∧ LegalPins scatPins 32 :=
  ⟨⟨by decide, by decide⟩, by decide, by decide⟩

/-- ConfigureAcceptsLegalOperands, depths 5 and 8. -/
theorem witness_ConfigureAccepts :
    State.reset.cfgValid = false ∧ LegalCfg State.reset.wMax (idCfg .timeline 5) ∧
      LegalCfg State.reset.wMax (idCfg .direct 8) :=
  ⟨rfl, idCfg_legal _ _ (by omega) (by omega), idCfg_legal _ _ (by omega) (by omega)⟩

/-- ConfigureReportsFirstFailure: the six failures, at W = 33, position W, roles 0 and 12, depths 4 and 9. -/
theorem witness_ConfigureReportsFirstFailure :
    ((parked .timeline).cfgValid = true) ∧
    (State.reset.cfgValid = false ∧ State.reset.wMax < 33 ∧ 32 ≤ State.reset.wMax) ∧
    (∀ j : Fin 14, j < 13 → idPins.pos j < 13) ∧ 13 ≤ idPins.pos 13 ∧
    (∀ i : Fin 14, clashPins.pos i < 32) ∧ clashPins.pos 0 = clashPins.pos 12 ∧
    (∀ k l : Fin 14, k < l → (k < 0 ∨ (k = 0 ∧ l < 12)) → clashPins.pos k ≠ clashPins.pos l) ∧
    (∀ i : Fin 14, idPins.pos i < 14) ∧ (∀ i j : Fin 14, i ≠ j → idPins.pos i ≠ idPins.pos j) ∧
    (4 < 5 ∨ 8 < 4) ∧ (9 < 5 ∨ 8 < 9) ∧
    (Channel.red = Channel.red ∨ Channel.red = Channel.blue ∨ Channel.red = Channel.blue) :=
  ⟨rfl, ⟨rfl, by decide, by decide⟩, by decide, by decide, by decide, by decide, by decide, by decide, by decide, by omega, by omega,
    .inl rfl⟩

theorem uniformGrid_wf (p : Pixel) : (uniformGrid p).wf = true := by
  show ((List.replicate 4096 p).length == 64 * 64) = true
  rw [List.length_replicate]; rfl

/-- FbReplaceInstallsWholeFrame and FbIngestInstallsGammaCorrectedFrame, both strategies. -/
theorem witness_FbReplace (st : Strategy) :
    (parked st).cfgValid = true ∧ (parked st).fbBusy = false ∧ (uniformGrid ⟨1, 2, 3⟩).w = 64 ∧
      (uniformGrid ⟨1, 2, 3⟩).h = 64 ∧ (uniformGrid ⟨1, 2, 3⟩).wf = true := ⟨rfl, rfl, rfl, rfl, uniformGrid_wf _⟩

/-- FbWriteCommitInstallsAndReleases. -/
theorem witness_FbWriteCommit (st : Strategy) :
    let s := { parked st with fbBusy := true };
    s.cfgValid = true ∧ s.fbBusy = true ∧ (uniformGrid ⟨1, 2, 3⟩).w = 64 ∧
      (uniformGrid ⟨1, 2, 3⟩).h = 64 ∧ (uniformGrid ⟨1, 2, 3⟩).wf = true := ⟨rfl, rfl, rfl, rfl, uniformGrid_wf _⟩

/-- LockTakenAndSnapshotReturned. -/
theorem witness_LockTaken (st : Strategy) : (parked st).fbBusy = false ∧ (parked st).cfgValid = true := ⟨rfl, rfl⟩

/-- FrameOperationsRejected: the three clauses; grids 64×63 and 65×64. -/
theorem witness_FrameOperationsRejected :
    (State.reset.fbBusy = false ∧ State.reset.cfgValid = false) ∧
    ((parked .direct).fbBusy = false ∧ (parked .direct).cfgValid = true ∧ ((64, 63) : Nat × Nat) ≠ (64, 64)) ∧
    ({ parked .direct with fbBusy := true }.fbBusy = true ∧ ((65, 64) : Nat × Nat) ≠ (64, 64)) :=
  ⟨⟨rfl, rfl⟩, ⟨rfl, rfl, by decide⟩, rfl, by decide⟩

/-- LockedOperationsWait. -/
theorem witness_LockedOperationsWait :
    { parked .direct with fbBusy := true }.fbBusy = true ∧
    (∀ i ∈ [Instr.fbReplace ⟨0, 0, []⟩, .fbIngest ⟨0, 0, []⟩, .fbWriteBegin, .fbSnapshot], waitsForLock i = true) :=
  ⟨rfl, by decide⟩

/-- CommitWithoutBeginRefused: the lock free; a malformed grid, the lock free and held. -/
theorem witness_CommitWithoutBegin :
    State.reset.fbBusy = false ∧ (⟨64, 64, []⟩ : Grid).wf = false ∧
    ((parked .direct).fbBusy = false ∧ (parked .direct).cfgValid = true) ∧
    { parked .direct with fbBusy := true }.fbBusy = true := ⟨rfl, by decide, ⟨rfl, rfl⟩, rfl⟩

/-- WaitingOperationRunsWhenLockFree: resumed with the lock free, with the lock held, and where none waits; nothing
scheduled, with the lock free, with the lock held, and with nothing waiting. -/
theorem witness_WaitingOperation :
    (let s := { parked .direct with waiting := [.fbSnapshot, .fbWriteBegin], schedule := [.resume 1] };
      s.schedule = .resume 1 :: [] ∧ s.waiting[1]? = some .fbWriteBegin ∧ s.fbBusy = false) ∧
    (let s := { parked .direct with fbBusy := true, waiting := [.fbSnapshot], schedule := [.resume 0] };
      s.schedule = .resume 0 :: [] ∧ s.fbBusy = true) ∧
    (let s := { parked .direct with schedule := [.resume 0] }; s.schedule = .resume 0 :: [] ∧ s.waiting[0]? = none) ∧
    (let s := { parked .direct with waiting := [.fbSnapshot] };
      s.schedule = [] ∧ s.waiting = .fbSnapshot :: [] ∧ s.fbBusy = false) ∧
    (let s := { parked .direct with fbBusy := true, waiting := [.fbSnapshot] }; s.schedule = [] ∧ s.fbBusy = true) ∧
    ((parked .direct).schedule = [] ∧ (parked .direct).waiting = []) :=
  ⟨⟨rfl, rfl, rfl⟩, ⟨rfl, rfl⟩, ⟨rfl, rfl⟩, ⟨rfl, rfl, rfl⟩, ⟨rfl, rfl⟩, rfl, rfl⟩

/-- StartBeginsFreshCycle: each clause. -/
theorem witness_StartBeginsFreshCycle :
    (State.reset.cfgValid = false) ∧
    ({ parked .direct with run := .faulted }.cfgValid = true ∧ { parked .direct with run := .faulted }.run = .faulted) ∧
    ((parked .direct).cfgValid = true ∧ (parked .direct).run = .idle ∧ 5 ≤ (parked .direct).cfg.depth ∧
      (parked .direct).cfg.depth ≤ 8) ∧
    ({ parked .direct with run := .running }.run = .running ∧ { parked .direct with run := .stopping }.run = .stopping) :=
  ⟨rfl, ⟨rfl, rfl⟩, ⟨rfl, rfl, by decide, by decide⟩, rfl, rfl⟩

/-- MicroOperationsDriveTheirLines. -/
theorem witness_MicroOperations : Configured (parked .timeline) := ⟨rfl, idCfg_five _, rfl⟩

/-- DataDrivesSlicedPixelBits. -/
theorem witness_DataDrives :
    let s := { parked .timeline with seq := .body 4 15 31 190 0 };
    Configured s ∧ s.seq = .body 4 15 31 190 0 := ⟨⟨rfl, idCfg_five _, rfl⟩, rfl⟩

/-- HoldCountsDownThenNextRow: the positions of its four clauses, in a configured block. -/
theorem witness_HoldCountsDown :
    (∀ pos, { parked .direct with seq := pos }.cfgValid = true) ∧
    ({ parked .direct with seq := .body 4 0 0 198 2 }.seq = .body 4 0 0 198 2 ∧ 1 < 2) ∧
    ({ parked .direct with seq := .body 4 0 30 198 1 }.seq = .body 4 0 30 198 1 ∧ (30 : Fin 32).val < 31) ∧
    ({ parked .direct with seq := .body 1 0 31 198 1 }.seq = .body 1 0 31 198 1 ∧ (31 : Fin 32).val = 31 ∧
      0 < (1 : Fin 8).val) ∧
    ({ parked .direct with seq := .body 0 0 31 198 0 }.seq = .body 0 0 31 198 0 ∧ 0 ≤ 1 ∧ (0 : Fin 8).val = 0) :=
  ⟨fun _ => rfl, ⟨rfl, by omega⟩, ⟨rfl, by decide⟩, ⟨rfl, by decide, by decide⟩, rfl, by omega, rfl⟩

/-- RowOperationsAtEndRefused. -/
theorem witness_RowOperationsAtEnd :
    (runningAt .direct .endCycle []).cfgValid = true ∧ (runningAt .direct .endCycle []).seq = .endCycle := ⟨rfl, rfl⟩

/-- UnconfiguredMicroOperationFaults; HOLD right after reset reads no stand-in position (R40, U2). -/
theorem witness_UnconfiguredMicroOperation :
    State.reset.cfgValid = false ∧ exec (.hold 2) State.reset = .fault (.unspecifiedRead .position) := ⟨rfl, rfl⟩

/-- ProgramAgreesWithPhaseDecode, IdxNumbersTheCycle and TimelineHasClosedForm: depths 5 and 8, the first and the last
body position and End. -/
theorem witness_positions :
    (∀ D ∈ [5, 8], 5 ≤ D ∧ D ≤ 8 ∧ (idCfg .timeline D).depth = D ∧ (idCfg .timeline D).strategy = .timeline) ∧
    Position.legal (idCfg .timeline 5) (.body 4 0 0 0 0) = true ∧
    Position.legal (idCfg .timeline 8) (.body 7 127 31 197 0) = true ∧
    Position.legal (idCfg .timeline 5) (.body 0 0 31 197 0) = true ∧
    Position.legal (idCfg .timeline 5) .endCycle = true ∧ Position.body 0 0 31 197 0 ≠ .endCycle := by decide

/-- IdxNumbersTheCycle, first clause: two names of one position (the hold counter is no part of it). -/
theorem witness_idx_equal :
    Position.legal (idCfg .timeline 5) (.body 4 15 31 197 0) = true ∧
    Position.legal (idCfg .timeline 5) (.body 4 15 31 197 1) = true ∧
    Position.idx 5 (.body 4 15 31 197 0) = Position.idx 5 (.body 4 15 31 197 1) ∧ 101375 ≤ 6336 * (2 ^ 5 - 1) := by
  decide

/-- TopPlaneIsScannedFirst, ShownIntensityIsTopBits. -/
theorem witness_TopPlane : (5 ≤ 5 ∧ 5 ≤ 8 ∧ (4 : Fin 8).val = 5 - 1) ∧ (5 ≤ 8 ∧ 8 ≤ 8 ∧ (7 : Fin 8).val = 8 - 1) := by
  decide

/-- TopPlaneIsScannedFirst, second clause, and RedFrameDrivesOnlyRedLines: word 1 of the cycle is the first DATA word,
and an admissible table has 255 at 255. -/
theorem witness_data_word :
    idTable.read 255 = 255 ∧ (cycleProgram 5)[1]? = some ⟨4, 0, .data 0⟩ ∧
    ∃ L : Lines, (lineStates idTable (idCfg .timeline 5) (Frame.uniform ⟨255, 0, 0⟩) (cycleProgram 5) Lines.g0)[1]? =
      some L := ⟨idTable_read 255, by rfl, _, by rfl⟩

/-- UnpackInvertsPack, last clause: a Timeline has words. -/
theorem witness_timeline_word : ∃ w, (timeline idTable (idCfg .timeline 5) Frame.blank)[0]? = some w := ⟨_, by rfl⟩

/-- BlackFrameTimeline and RedFrameDrivesOnlyRedLines. -/
theorem witness_BlackAndRed :
    idTable.read 0 = 0 ∧ idTable.read 255 = 255 ∧ 5 ≤ (idCfg .timeline 5).depth ∧ (idCfg .timeline 5).depth ≤ 8 ∧
      (idCfg .timeline 5).chanMap = ⟨.red, .green, .blue⟩ ∧ (4 : Fin 8).val < (idCfg .timeline 5).depth :=
  ⟨idTable_read 0, idTable_read 255, by decide, by decide, rfl, by decide⟩

/-- DecodeInvertsEncode. -/
theorem witness_DecodeInvertsEncode : (Instr.fbReplace (uniformGrid ⟨1, 2, 3⟩)).wf = true := uniformGrid_wf _

/-- DecodedBytesAreTheEncoding. -/
theorem witness_DecodedBytes : decode [0x1B, 0x87, 0x02, 0x55] = .ok (.hold 263, [0x55]) := by rfl

/-- StepRunsHostTransaction: the four clauses. -/
theorem witness_StepRunsHost :
    ({ State.reset with schedule := [.host [0x07, 0]] }.schedule = [.host [0x07, 0]] ∧
      decode [0x07, 0] = .ok (.start, [0]) ∧ (∀ b ∈ [(0 : Byte)], b = 0) ∧ Instr.start.isMicro = false) ∧
    (decode [0x10] = .ok (.clr, []) ∧ (∀ b ∈ ([] : List Byte), b = 0) ∧ Instr.clr.isMicro = true) ∧
    (decode [0x07, 1] = .ok (.start, [1]) ∧ ∃ b ∈ [(1 : Byte)], b ≠ 0) ∧
    decode [0x0B] = .error (.unknownOperation 0x0B) :=
  ⟨⟨rfl, rfl, by decide, rfl⟩, ⟨rfl, by decide, rfl⟩, ⟨rfl, by decide⟩, rfl⟩

/-- StepRunsTimelineMicroOperation and TimelineTickReplaysStoredWord: at the cycle start and inside a row with a stop
request pending. -/
theorem witness_TimelineTick :
    (let s := runningAt .timeline (.body 4 0 0 0 0) [.tick];
      Configured s ∧ s.cfg.strategy = .timeline ∧ s.run = .running ∧ s.schedule = [.tick] ∧
        s.seq.legal s.cfg = true ∧ (s.seq.isRowStart = true → s.stopreq = false)) ∧
    (let s := { runningAt .timeline (.body 4 0 1 100 0) [.tick] with stopreq := true };
      Configured s ∧ s.cfg.strategy = .timeline ∧ s.run = .running ∧ s.schedule = [.tick] ∧
        s.seq.legal s.cfg = true ∧ (s.seq.isRowStart = true → s.stopreq = false)) :=
  ⟨⟨⟨rfl, idCfg_five _, rfl⟩, rfl, rfl, rfl, by decide, fun _ => rfl⟩,
    ⟨rfl, idCfg_five _, rfl⟩, rfl, rfl, rfl, by decide, fun h => absurd h (by decide)⟩

/-- StepRunsDirectMicroOperation: End, the hold phase, a row start at the cycle start and off it with the lock held
(both ways), and OEE before a hold and, with no dwell, before the next row, the next plane and End. -/
theorem witness_DirectTick :
    ∀ pos ∈ [Position.endCycle, .body 4 0 31 198 32, .body 4 0 0 0 0, .body 4 0 1 0 0, .body 4 0 30 197 0,
        .body 4 0 31 197 0, .body 0 0 31 197 0], ∀ dwellUnit busy,
      let s := { runningAt .direct pos [.tick] with
        cfg := { idCfg .direct 5 with dwellUnit := dwellUnit }, fbBusy := busy };
      Configured s ∧ s.cfg.strategy = .direct ∧ s.run = .running ∧ s.schedule = [.tick] ∧
        s.seq.legal s.cfg = true ∧ (s.seq.isRowStart = true → s.stopreq = false) := by
  intro pos h dwellUnit busy
  refine ⟨⟨rfl, idCfg_five .direct, rfl⟩, rfl, rfl, rfl, ?_, fun _ => rfl⟩
  simp only [List.mem_cons, List.not_mem_nil, or_false] at h
  rcases h with rfl | rfl | rfl | rfl | rfl | rfl | rfl <;> rfl

/-- StopSequenceIsTwoTicks, both strategies. -/
theorem witness_StopSequence (st : Strategy) :
    let s := { runningAt st (.body 4 0 2 0 0) [.tick, .tick] with stopreq := true };
    Configured s ∧ s.run = .running ∧ s.stopreq = true ∧ s.seq.isRowStart = true ∧ s.schedule = [.tick, .tick] :=
  ⟨⟨rfl, idCfg_five _, rfl⟩, rfl, rfl, rfl, rfl⟩

/-- FaultForcesOutputDisabled, in RUNNING and in STOPPING. -/
theorem witness_FaultForces :
    (let s := runningAt .timeline (.body 4 0 0 2 0) [.envFault 7];
      Configured s ∧ s.run = .running ∧ s.schedule = [.envFault 7]) ∧
    (let s := { parked .direct with run := .stopping, schedule := [.envFault 0] };
      Configured s ∧ s.run = .stopping ∧ s.schedule = [.envFault 0]) :=
  ⟨⟨⟨rfl, idCfg_five _, rfl⟩, rfl, rfl⟩, ⟨rfl, idCfg_five _, rfl⟩, rfl, rfl⟩

/-- InactiveEngineHasNoStep: both states, both events. -/
theorem witness_InactiveEngine :
    (let s := { parked .timeline with schedule := [.tick] }; s.run = .idle ∧ s.schedule = [.tick]) ∧
    (let s := { parked .timeline with run := .faulted, schedule := [.envFault 1] };
      s.run = .faulted ∧ s.schedule = [.envFault 1]) := ⟨⟨rfl, rfl⟩, rfl, rfl⟩

/-- ExtChangesOnlyForeignBits: configured, and after a RESET that froze some bits. -/
theorem witness_ExtChanges :
    (let s := { parked .timeline with schedule := [.ext 0xFFFFFFFF] };
      s.schedule = .ext 0xFFFFFFFF :: [] ∧ s.cfgValid = true) ∧
    (let s := { State.reset with schedule := [.ext 0], frozen := 0x3FFF, bus := 0x3809 };
      s.schedule = .ext 0 :: [] ∧ s.cfgValid = false) := ⟨⟨rfl, rfl⟩, rfl, rfl⟩

/-- The statements over one step from the invariant (InvariantKeptByStep, ActChangesOnlyAtSwapPoints,
GenerationsNeverDecrease, TickFrame, ConfigurationHeldUntilReset, TablesNeverChange, ForeignBitsNeverDisturbed): a
running Direct block at a row start adopts a newer generation in one tick. -/
theorem witness_step_adopts :
    let s : State := { runningAt .direct (.body 4 0 0 0 0) [.tick] with
      fbFrame := Frame.uniform ⟨255, 0, 0⟩, fbGen := 1 };
    Inv s ∧ s.cfgValid = true ∧ s.schedule = [.tick] ∧ s.seq.isRowStart = true ∧ s.fbBusy = false ∧
      ∃ t, step s = .next t ∧ t.actGen = 1 ∧ t.actGen ≠ s.actGen ∧ t.cfgValid = true :=
  ⟨inv_replaced witness_inv_running.2.1 rfl rfl _, rfl, rfl, rfl, rfl, _, rfl, rfl, by decide, rfl⟩

/-- ForeignBitsNeverDisturbed: CONFIGURE of an unconfigured block, and a step of an unconfigured block that stays so. -/
theorem witness_ForeignBits :
    (let s := { State.reset with schedule := [.host (encode (.configure idPins 32 5 .timeline rgbMap 0))] };
      s.cfgValid = false ∧ after (step s) (fun t => t.cfgValid) = some true) ∧
    (let s := { State.reset with schedule := [.host [0x08]] };
      s.cfgValid = false ∧ after (step s) (fun t => t.cfgValid) = some false) := by
  decide +kernel

/-- ActChangesOnlyAtSwapPoints, GenerationsNeverDecrease, ConfigurationHeldUntilReset, the RESET: a block that shows
generation 1 is reset. -/
theorem witness_reset_changes_act :
    let s := { parked .timeline with
      fbFrame := Frame.uniform ⟨255, 0, 0⟩, fbGen := 1, actFrame := Frame.uniform ⟨255, 0, 0⟩, actGen := 1,
      schedule := [.host [0x0A]] };
    Inv s ∧ s.cfgValid = true ∧ ResetScheduled s ∧ ∃ t, step s = .next t ∧ t.actGen ≠ s.actGen :=
  ⟨inv_asked (inv_shown (parked_inv .timeline) rfl rfl rfl _) false _, rfl, ⟨_, _, _, rfl, rfl, by decide⟩, _, rfl,
    by decide⟩

/-- ConfigurationHeldUntilReset, a waiting RESET: the state is none of the invariant's. -/
theorem witness_waiting_reset :
    let s := { parked .timeline with schedule := [.resume 0], waiting := [.reset] };
    ResetResumed s ∧ ¬Inv s ∧ s.cfgValid = true ∧ after (step s) (fun t => t.cfgValid) = some false :=
  ⟨.inl ⟨0, [], rfl, rfl⟩, fun h => by simpa [waitsForLock] using h.waiting_ops .reset (by simp), rfl, rfl⟩

/-- InvariantStatesStopOnlyOnRefusedTransactions: a tick, and the four refusals of a host transaction. -/
theorem witness_InvariantStatesStop :
    (let s := runningAt .timeline (.body 4 0 0 0 0) [.tick];
      Inv s ∧ ∀ (bytes : List Byte) (later : List AgentStep), s.schedule ≠ .host bytes :: later) ∧
    ∀ p ∈ [([0x0B], Refusal.badTransaction (.unknownOperation 0x0B)), ([0x07, 1], .trailingBytes),
        ([0x10], .microOperationFromHost), ([0x05, 0, 0], .commitWithoutBegin)],
      Inv { parked .timeline with schedule := [.host p.1] } ∧
        step { parked .timeline with schedule := [.host p.1] } = .refused p.2 := by
  refine ⟨⟨witness_inv_running.1, fun _ _ h => by cases h⟩, fun p hp => ⟨{ parked_inv .timeline with }, ?_⟩⟩
  simp only [List.mem_cons, List.not_mem_nil, or_false] at hp
  rcases hp with rfl | rfl | rfl | rfl <;> rfl

/-- BothStrategiesDriveTheProgram: the cycle start in Timeline mode, End in Direct mode. -/
theorem witness_BothStrategies :
    (let s := runningAt .timeline (.body 4 0 0 0 0) [.tick];
      Inv s ∧ s.run = .running ∧ s.schedule = [.tick] ∧ (s.seq.isRowStart = true → s.stopreq = false) ∧
        ∀ (p : Fin 8) (n : Fin 128) (r : Fin 32) (q : Fin 199) (h : Nat), s.seq = .body p n r q h → q.val ≠ 198) ∧
    (let s := runningAt .direct .endCycle [.tick];
      Inv s ∧ s.run = .running ∧ s.schedule = [.tick] ∧ (s.seq.isRowStart = true → s.stopreq = false) ∧
        ∀ (p : Fin 8) (n : Fin 128) (r : Fin 32) (q : Fin 199) (h : Nat), s.seq = .body p n r q h → q.val ≠ 198) :=
  ⟨⟨witness_inv_running.1, rfl, rfl, fun _ => rfl, fun _ _ _ _ _ h => by cases h; decide⟩,
    witness_inv_running.2.2.2.2.2, rfl, rfl, fun _ => rfl, fun _ _ _ _ _ h => by cases h⟩

/-- OutputDisableBracketsLatchAndAddress and OneLineGroupPerWord: a latch word, an enabling word, a clock word, and
the cycle start. -/
theorem witness_line_changes :
    (let s := runningAt .timeline (.body 4 0 1 194 0) [.tick];
      after (step s) (fun t => (s.lines.lat, t.lines.lat, s.lines.oe, t.cfgValid)) = some (true, false, true, true)) ∧
    (let s := runningAt .timeline (.body 4 0 1 197 0) [.tick];
      after (step s) (fun t => (s.lines.oe, t.lines.oe, t.cfgValid)) = some (true, false, true)) ∧
    (let s := runningAt .timeline (.body 4 0 1 2 0) [.tick];
      after (step s) (fun t => (s.lines.clk, t.lines.clk, t.cfgValid)) = some (false, true, true)) ∧
    atCycleStart (runningAt .timeline (.body 4 0 0 0 0) [.tick]) :=
  ⟨by decide +kernel, by decide +kernel, by decide +kernel, rfl⟩

theorem witness_line_changes_inv :
    Inv (runningAt .timeline (.body 4 0 1 194 0) [.tick]) ∧ Inv (runningAt .timeline (.body 4 0 1 197 0) [.tick]) ∧
    Inv (runningAt .timeline (.body 4 0 1 2 0) [.tick]) :=
  ⟨runningAt_inv _ _ _ (by decide) (fun h => absurd h (by decide)) (fun h => by simp [Position.isCycleStart] at h),
    runningAt_inv _ _ _ (by decide) (fun h => absurd h (by decide)) (fun h => by simp [Position.isCycleStart] at h),
    runningAt_inv _ _ _ (by decide) (fun h => absurd h (by decide)) (fun h => by simp [Position.isCycleStart] at h)⟩

/-- OneLineGroupPerWord: a STOPPING block that takes the idle word. -/
theorem witness_Stopping :
    let s := { parked .timeline with run := .stopping, schedule := [.tick] };
    Inv s ∧ s.run = .stopping ∧ s.cfgValid = true ∧ ∃ t, step s = .next t ∧ t.cfgValid = true ∧ t.run = .idle :=
  ⟨{ parked_inv .timeline with
      active_configured := fun _ => rfl
      idle_rest := by intro h; cases h
      running_position := by intro h; cases h
      running_lines := by intro h; cases h
      stopping_rest := fun _ => ⟨rfl, rfl, rfl⟩
      faulted_dark := by intro h; cases h }, rfl, rfl, _, rfl, rfl, rfl⟩

/-- FaultedUntilReset: STOP and RESET in FAULTED. -/
theorem witness_Faulted :
    ∀ code ∈ [(0x08 : Byte), 0x0A],
      let s := { parked .timeline with run := .faulted, err := ⟨3, 7, 0, 0⟩, schedule := [.host [code]] };
      Inv s ∧ s.run = .faulted ∧ ∃ t, step s = .next t := by
  intro code h
  refine ⟨{ parked_inv .timeline with
      active_configured := fun _ => rfl
      idle_rest := by intro h; cases h
      running_position := by intro h; cases h
      running_lines := by intro h; cases h
      stopping_rest := by intro h; cases h
      faulted_dark := fun _ => ⟨rfl, rfl⟩ }, rfl, ?_⟩
  simp only [List.mem_cons, List.not_mem_nil, or_false] at h
  rcases h with rfl | rfl
  · exact ⟨_, rfl⟩
  · exact ⟨_, rfl⟩

/-- StopReachesIdle: in the middle of a Timeline row, and in a Direct row with its hold to come. -/
theorem witness_StopReachesIdle :
    ∃ s s' : State, Inv s ∧ s.run = .running ∧ s.stopreq = true ∧ s.cfg.strategy = .timeline ∧
      s.schedule = ticks (200 + holdBound s) ++ [] ∧
      Inv s' ∧ s'.run = .running ∧ s'.stopreq = true ∧ s'.cfg.strategy = .direct ∧
      s'.schedule = ticks (200 + holdBound s') ++ [] :=
  have h := runningAt_inv .timeline (.body 4 0 1 100 0) (ticks 200) (by decide)
    (fun h => absurd h (by decide)) (fun h => by simp [Position.isCycleStart] at h)
  have h' := runningAt_inv .direct (.body 4 0 1 100 0) (ticks 232) (by decide)
    (fun h => absurd h (by decide)) (fun h => by simp [Position.isCycleStart] at h)
  ⟨{ runningAt .timeline (.body 4 0 1 100 0) (ticks 200) with stopreq := true },
    { runningAt .direct (.body 4 0 1 100 0) (ticks 232) with stopreq := true },
    inv_asked h true _, rfl, rfl, rfl, by simp [runningAt, parked, holdBound, idCfg],
    inv_asked h' true _, rfl, rfl, rfl, by simp [runningAt, parked, holdBound, idCfg, dwell]⟩

/-- PendingAdoptedWithinOneCycle. -/
theorem witness_PendingAdopted :
    ∃ s : State, Inv s ∧ s.cfg.strategy = .timeline ∧ s.run = .running ∧ s.stopreq = false ∧ s.pendValid = true ∧
      s.schedule = ticks (6336 * (2 ^ s.cfg.depth - 1) + 1) ++ [] :=
  have h := runningAt_inv .timeline (.body 4 0 1 100 0) (ticks 196417) (by decide)
    (fun h => absurd h (by decide)) (fun h => by simp [Position.isCycleStart] at h)
  ⟨{ runningAt .timeline (.body 4 0 1 100 0) (ticks 196417) with
      fbFrame := Frame.uniform ⟨255, 255, 255⟩, fbGen := 1, pendFrame := Frame.uniform ⟨255, 255, 255⟩, pendGen := 1,
      pendValid := true },
    inv_published h rfl rfl _,
    rfl, rfl, rfl, rfl, by simp [runningAt, parked, idCfg]⟩

/-- HoldTakesDwellTicks: the OEE word before a hold of plane 4 and, with no dwell, of no tick; a whole hold and the
last tick of one. -/
theorem witness_HoldTakes :
    (∀ dwellUnit, let s := { runningAt .direct (.body 4 0 31 197 0) (ticks (1 + dwellUnit * 2 ^ 4)) with
        cfg := { idCfg .direct 5 with dwellUnit := dwellUnit } };
      Configured s ∧ s.cfg.strategy = .direct ∧ s.run = .running ∧ s.seq.legal s.cfg = true ∧
        s.seq = .body 4 0 31 197 0 ∧ s.schedule = ticks (1 + s.cfg.dwellUnit * 2 ^ (4 : Fin 8).val) ++ []) ∧
    ∀ h ∈ [32, 1], let s := runningAt .direct (.body 4 0 31 198 h) (ticks h);
      Configured s ∧ s.cfg.strategy = .direct ∧ s.run = .running ∧ s.seq.legal s.cfg = true ∧
        s.seq = .body 4 0 31 198 h ∧ 1 ≤ h ∧ s.schedule = ticks h ++ [] := by
  refine ⟨fun dwellUnit => ⟨⟨rfl, idCfg_five .direct, rfl⟩, rfl, rfl, rfl, rfl, (List.append_nil _).symm⟩,
    fun h hm => ⟨⟨rfl, idCfg_five _, rfl⟩, rfl, rfl, rfl, rfl, ?_, (List.append_nil _).symm⟩⟩
  rcases List.mem_pair.mp hm with rfl | rfl
  · decide
  · decide

end Sys2Proof.Tests
end

/-! PROOFS. The family of 00_scope.md: which step a scheduled agent takes (R7), the host transaction (R99) and EXT's
write (R21). -/

namespace Sys2Proof.Proofs

open Sys2Proof Sys2Proof.Machine

/-! ## One step of a scheduled agent -/

/-- With an agent scheduled, the step is that agent's, and it comes off the schedule. -/
theorem step_of_schedule_cons {s : State} {a : AgentStep} {later : List AgentStep} (hs : s.schedule = a :: later) :
    step s = agentStep a { s with schedule := later } := by
  simp only [step, nextStep, hs]

/-! ## The host transaction, one equation for each branch -/

section HostStep

variable {bytes rest : List Byte} {i : Instr} {s : State}

theorem hostStep_of_decode_error {e : DecodeError} (hd : decode bytes = .error e) :
    hostStep bytes s = .refused (.badTransaction e) := by
  simp only [hostStep, hd]

/-- Zero padding after the operands is let through (log entry 1): what remains is whether HOST may use the operation. -/
theorem hostStep_of_zero_padding (hd : decode bytes = .ok (i, rest)) (hz : ∀ b ∈ rest, b = 0) :
    hostStep bytes s = if i.isMicro then .refused .microOperationFromHost else exec i s := by
  have hall : rest.all (fun b => b == 0) = true := by simpa using hz
  simp only [hostStep, hd, if_pos hall]

theorem hostStep_of_trailing_bytes (hd : decode bytes = .ok (i, rest)) (hz : ∃ b ∈ rest, b ≠ 0) :
    hostStep bytes s = .refused .trailingBytes := by
  have hall : ¬ rest.all (fun b => b == 0) = true := by simpa using hz
  simp only [hostStep, hd, if_neg hall]

end HostStep

/-- Settles O36: the scheduled step is `hostStep`'s, and each clause is one of its branches. -/
theorem stepRunsHostTransaction : Obligations.StepRunsHostTransaction := by
  intro s bytes later hs
  have hstep : step s = hostStep bytes { s with schedule := later } := step_of_schedule_cons hs
  rw [hstep]
  refine ⟨fun e hd => hostStep_of_decode_error hd, fun i rest hd => ⟨fun hz hm => ?_, fun hz hm => ?_, fun hz => ?_⟩⟩
  · simp [hostStep_of_zero_padding hd hz, hm]
  · simp [hostStep_of_zero_padding hd hz, hm]
  · exact hostStep_of_trailing_bytes hd hz

/-! ## EXT's write -/

/-- Which bits are held does not depend on the schedule. -/
theorem heldBits_schedule (s : State) (later : List AgentStep) :
    heldBits { s with schedule := later } = heldBits s := rfl

theorem heldBits_of_valid {s : State} (hv : s.cfgValid = true) : heldBits s = s.masks.driven := by
  simp [heldBits, hv]

theorem heldBits_of_invalid {s : State} (hv : s.cfgValid = false) : heldBits s = s.frozen := by
  simp [heldBits, hv]

/-- EXT's write bit by bit (R21): a held bit stays, any other one takes the word's, cut off at W_MAX. -/
theorem testBit_extWrite_bus (word : BusWord) (s : State) (k : Nat) :
    (extWrite word s).bus.testBit k =
      if (heldBits s).testBit k then s.bus.testBit k else (decide (k < s.wMax) && word.testBit k) := by
  rw [extWrite_bus, testBit_maskedWrite, Nat.testBit_mod_two_pow]

/-- Settles O42: EXT writes BUS alone, and the bits it leaves are driven_mask's with a configuration and the frozen
ones without. -/
theorem extChangesOnlyForeignBits : Obligations.ExtChangesOnlyForeignBits := by
  intro s word later hs
  refine ⟨(extWrite word { s with schedule := later }).bus, step_of_schedule_cons hs, fun hv k => ?_, fun hv k => ?_⟩
  · rw [testBit_extWrite_bus, heldBits_schedule, heldBits_of_valid hv]
  · rw [testBit_extWrite_bus, heldBits_schedule, heldBits_of_invalid hv]

end Sys2Proof.Proofs

/-! PROOFS. The family of 10_state.md: the values after power-on (R40), the invariant of the machine and the steps that
keep it, what stops a step, and what no step but RESET changes (R26, R28 to R30, R33). -/

namespace Sys2Proof.Proofs

open Sys2Proof Sys2Proof.Machine

/-! ## After power-on -/

theorem blank_pixel (x y : Fin 64) : Frame.blank.pixel x y = ⟨0, 0, 0⟩ :=
  List.getElem_replicate _

/-- Settles O18: the fields are those of `State.reset`, and both frames are the blank one. -/
theorem powerOnValues : Obligations.PowerOnValues :=
  ⟨rfl, rfl, rfl, rfl, rfl, rfl, rfl, rfl, rfl, fun x y => ⟨blank_pixel x y, blank_pixel x y⟩⟩

theorem read_tableOfFn (f : Nat → Byte) (v : Byte) : (Table.ofFn f).read v = f v.toNat := by
  simp [Table.read, Table.ofFn]

section TableEntry

variable (seed : Nat → Byte)

theorem runningMax_le_255 (n : Nat) : Config.runningMax seed n ≤ 255 := by
  induction n with
  | zero => simp [Config.runningMax]
  | succ n ih =>
    have := (seed (n + 1)).isLt
    simp only [Config.runningMax]
    omega

theorem runningMax_mono {m n : Nat} (h : m ≤ n) : Config.runningMax seed m ≤ Config.runningMax seed n := by
  induction h with
  | refl => exact Nat.le_refl _
  | step _ ih => exact Nat.le_trans ih (Nat.le_max_left _ _)

/-- Strictly between the fixed ends a seeded table holds the running maximum of its seed. -/
theorem tableEntry_toNat (v : Nat) :
    (Config.tableEntry seed v).toNat = if v = 0 then 0 else if 255 ≤ v then 255 else Config.runningMax seed v := by
  have := runningMax_le_255 seed v
  unfold Config.tableEntry
  split
  · rfl
  · split
    · rfl
    · rw [BitVec.toNat_ofNat]; omega

/-- The table of a seed meets the constraints of R121 and R123. -/
theorem admissible_tableEntry : Admissible (Table.ofFn (Config.tableEntry seed)) := by
  refine ⟨?_, ?_, fun a b hab => ?_⟩
  · rw [read_tableOfFn]; rfl
  · rw [read_tableOfFn]; rfl
  · have hmono := runningMax_mono seed hab
    have ha := runningMax_le_255 seed a.toNat
    simp only [read_tableOfFn, tableEntry_toNat]
    split_ifs <;> omega

end TableEntry

/-- Settles O43: nothing is configured, nothing runs, and the tables are those of the seeds. -/
theorem invariantAtReset : Obligations.InvariantAtReset where
  bus_width := Nat.two_pow_pos _
  tables := ⟨admissible_tableEntry _, admissible_tableEntry _⟩
  configured := nofun
  bus_lines := nofun
  active_configured := fun h => absurd rfl h
  idle_rest := fun _ => rfl
  running_position := nofun
  running_lines := nofun
  stopping_rest := nofun
  faulted_dark := nofun
  lock_configured := nofun
  pend_newest := nofun
  act_not_newer := ⟨Nat.le_refl _, fun _ => rfl⟩
  unconfigured_blank := fun _ => ⟨rfl, rfl, rfl, rfl⟩
  waiting_ops := nofun

/-! ## An unconfigured block runs no micro-operation -/

section Unconfigured

variable {s : State} (hv : s.cfgValid = false)
include hv

theorem driveLines_of_invalid (L : Lines) : driveLines L s = .fault (.unspecifiedRead .masks) := by
  simp [driveLines, hv]

theorem atPosition_of_invalid (f : Position → Answer) : atPosition s f = .fault (.unspecifiedRead .position) := by
  simp [atPosition, hv]

end Unconfigured

/-- Settles O23: the bus writes would read the masks, DATA and HOLD the position. -/
theorem unconfiguredMicroOperationFaults : Obligations.UnconfiguredMicroOperationFaults := by
  intro s hv
  have hdata (c : Fin 64) : execData c s = .fault (.unspecifiedRead .position) := atPosition_of_invalid hv _
  have hhold (h : Nat) : execHold h s = .fault (.unspecifiedRead .position) := atPosition_of_invalid hv _
  refine ⟨fun i hi => ?_, fun r => driveLines_of_invalid hv _, hdata, hhold⟩
  simp only [List.mem_cons, List.not_mem_nil, or_false] at hi
  rcases hi with rfl | rfl | rfl | rfl | rfl | rfl | rfl | rfl | rfl <;> exact driveLines_of_invalid hv _

/-! ## The two parts of the invariant -/

/-- The part of the invariant that does not say where the engine stands: the register, the tables, the configuration,
the frame generations and the waiting operations. -/
structure DataInv (s : State) : Prop where
  bus_width : s.bus < 2 ^ s.wMax
  tables : Admissible s.light ∧ Admissible s.gamma
  configured : s.cfgValid = true → Configured s
  bus_lines : s.cfgValid = true → s.bus &&& s.masks.driven = pack s.cfg.pins s.lines
  lock_configured : s.fbBusy = true → s.cfgValid = true
  pend_newest : s.pendValid = true →
    s.cfgValid = true ∧ s.cfg.strategy = .timeline ∧ s.pendFrame = s.fbFrame ∧ s.pendGen = s.fbGen
  act_not_newer : s.actGen ≤ s.fbGen ∧ (s.actGen = s.fbGen → s.actFrame = s.fbFrame)
  unconfigured_blank : s.cfgValid = false →
    s.fbFrame = Frame.blank ∧ s.fbGen = 0 ∧ s.actFrame = Frame.blank ∧ s.actGen = 0
  waiting_ops : ∀ i ∈ s.waiting, waitsForLock i = true ∧ i.wf = true

/-- The engine's part of the invariant: what each value of ENG.run says of the position, the lines and ERR. -/
def EngineFits (s : State) : Prop :=
  match s.run with
  | .idle => s.lines = Lines.g0
  | .running => s.cfgValid = true ∧ s.seq.legal s.cfg = true ∧ HoldFits s.cfg s.seq ∧ LinesFit s
  | .stopping => s.cfgValid = true ∧ s.lines.clk = false ∧ s.lines.lat = true ∧ s.lines.oe = true
  | .faulted => s.cfgValid = true ∧ s.lines.oe = true ∧ s.err.cls = 3

section EngineFits

variable {s : State}

theorem engineFits_of_idle (hr : s.run = .idle) : EngineFits s ↔ s.lines = Lines.g0 := by
  simp only [EngineFits, hr]

theorem engineFits_of_running (hr : s.run = .running) :
    EngineFits s ↔ s.cfgValid = true ∧ s.seq.legal s.cfg = true ∧ HoldFits s.cfg s.seq ∧ LinesFit s := by
  simp only [EngineFits, hr]

theorem engineFits_of_stopping (hr : s.run = .stopping) :
    EngineFits s ↔ s.cfgValid = true ∧ s.lines.clk = false ∧ s.lines.lat = true ∧ s.lines.oe = true := by
  simp only [EngineFits, hr]

theorem engineFits_of_faulted (hr : s.run = .faulted) :
    EngineFits s ↔ s.cfgValid = true ∧ s.lines.oe = true ∧ s.err.cls = 3 := by
  simp only [EngineFits, hr]

theorem engineFits_valid (he : EngineFits s) (hr : s.run ≠ .idle) : s.cfgValid = true := by
  cases hrun : s.run with
  | idle => exact absurd hrun hr
  | running => exact ((engineFits_of_running hrun).mp he).1
  | stopping => exact ((engineFits_of_stopping hrun).mp he).1
  | faulted => exact ((engineFits_of_faulted hrun).mp he).1

end EngineFits

theorem engineFits_of_inv {s : State} (h : Inv s) : EngineFits s := by
  cases hr : s.run with
  | idle => exact (engineFits_of_idle hr).mpr (h.idle_rest hr)
  | running =>
    obtain ⟨hl, hh⟩ := h.running_position hr
    exact (engineFits_of_running hr).mpr ⟨h.active_configured (by simp [hr]), hl, hh, h.running_lines hr⟩
  | stopping => exact (engineFits_of_stopping hr).mpr ⟨h.active_configured (by simp [hr]), h.stopping_rest hr⟩
  | faulted => exact (engineFits_of_faulted hr).mpr ⟨h.active_configured (by simp [hr]), h.faulted_dark hr⟩

theorem inv_iff {s : State} : Inv s ↔ DataInv s ∧ EngineFits s := by
  refine ⟨fun h => ⟨{ h with }, engineFits_of_inv h⟩, fun ⟨hd, he⟩ => { hd with
    active_configured := engineFits_valid he
    idle_rest := fun hr => (engineFits_of_idle hr).mp he
    running_position := fun hr => ?_
    running_lines := fun hr => ?_
    stopping_rest := fun hr => ((engineFits_of_stopping hr).mp he).2
    faulted_dark := fun hr => ((engineFits_of_faulted hr).mp he).2 }⟩
  · obtain ⟨-, hl, hh, -⟩ := (engineFits_of_running hr).mp he
    exact ⟨hl, hh⟩
  · obtain ⟨-, -, -, hf⟩ := (engineFits_of_running hr).mp he
    exact hf

/-! ## What keeps the data part -/

/-- A bus write of any line state under a configuration (R21, R23). -/
theorem dataInv_drive {s : State} (h : DataInv s) (hv : s.cfgValid = true) (L : Lines) : DataInv (drive L s) := by
  obtain ⟨-, ⟨hw, hp, -⟩, hm⟩ := h.configured hv
  have hpack : pack s.cfg.pins L &&& s.masks.driven = pack s.cfg.pins L := by rw [hm, pack_and_driven]
  exact { h with
    bus_width := maskedWrite_lt h.bus_width (by rw [hpack]; exact pack_lt hp hw L)
    bus_lines := fun _ => by rw [drive_bus, drive_masks, maskedWrite_and, hpack]; rfl }

/-- EXT's write: no driven bit changes (R21, R23). -/
theorem dataInv_extWrite {s : State} (h : DataInv s) (w : BusWord) : DataInv (extWrite w s) :=
  { h with
    bus_width := by
      have hle : s.bus &&& heldBits s ≤ s.bus := Nat.and_le_left
      exact maskedWrite_lt (Nat.mod_lt _ (Nat.two_pow_pos _)) (Nat.lt_of_le_of_lt hle h.bus_width)
    bus_lines := fun hv => by
      rw [extWrite_bus, heldBits_of_valid (s := s) hv, extWrite_masks, maskedWrite_and]
      exact h.bus_lines hv }

/-- The Timeline swap shows the newest generation (R238, R160). -/
theorem dataInv_adopt {s : State} (h : DataInv s) : DataInv (adopt s) := by
  unfold adopt
  split
  · next hp =>
    obtain ⟨hv, -, hF, hG⟩ := h.pend_newest hp
    exact { h with
      pend_newest := nofun
      act_not_newer := ⟨Nat.le_of_eq hG, fun _ => hF⟩
      unconfigured_blank := fun hn => absurd (hv.symm.trans hn) (by decide) }
  · exact h

/-- The Direct snapshot shows the newest generation, or stays (R244). -/
theorem dataInv_acquire {s : State} (h : DataInv s) : DataInv (acquire s) := by
  unfold acquire
  split
  · exact h
  · exact { h with
      act_not_newer := ⟨Nat.le_refl _, fun _ => rfl⟩
      unconfigured_blank := fun hn => by
        obtain ⟨hF, hG, -, -⟩ := h.unconfigured_blank hn
        exact ⟨hF, hG, hF, hG⟩ }

/-- s1 is s, or s after the swap of its strategy: ACT and PEND.valid may differ, what a position is judged by does
not. -/
structure Swapped (s s1 : State) : Prop where
  data : DataInv s1
  cfgValid : s1.cfgValid = s.cfgValid
  cfg : s1.cfg = s.cfg
  light : s1.light = s.light
  run : s1.run = s.run

theorem swapped_refl {s : State} (h : DataInv s) : Swapped s s := ⟨h, rfl, rfl, rfl, rfl⟩

theorem swapped_adopt {s : State} (h : DataInv s) : Swapped s (adopt s) :=
  ⟨dataInv_adopt h, adopt_cfgValid s, adopt_cfg s, adopt_light s, adopt_run s⟩

theorem swapped_acquire {s : State} (h : DataInv s) : Swapped s (acquire s) :=
  ⟨dataInv_acquire h, acquire_cfgValid s, acquire_cfg s, acquire_light s, acquire_run s⟩

theorem swapped_ite {s s1 : State} (c : Bool) (h : DataInv s) (h1 : Swapped s s1) :
    Swapped s (if c then s1 else s) := by
  cases c with
  | false => exact swapped_refl h
  | true => exact h1

/-! ## A tick keeps the invariant -/

theorem inv_of_running {s : State} (hd : DataInv s) (hr : s.run = .running) (hv : s.cfgValid = true)
    (hl : s.seq.legal s.cfg = true) (hh : HoldFits s.cfg s.seq) (hf : LinesFit s) : Inv s :=
  inv_iff.mpr ⟨hd, (engineFits_of_running hr).mpr ⟨hv, hl, hh, hf⟩⟩

/-- At the cycle start no line but RGB and the address is fixed; elsewhere the lines are the program's. -/
theorem linesFit_of_program {s : State} (hc : s.seq.isCycleStart s.cfg.depth = false)
    (hl : s.lines = lineBefore s.light s.cfg s.actFrame s.seq) : LinesFit s := by
  simpa only [LinesFit, hc, Bool.false_eq_true, if_false] using hl

theorem lines_of_linesFit {s : State} (hf : LinesFit s) (hc : s.seq.isCycleStart s.cfg.depth = false) :
    s.lines = lineBefore s.light s.cfg s.actFrame s.seq := by
  simpa only [LinesFit, hc, Bool.false_eq_true, if_false] using hf

/-- A tick that drives L and moves to a position the program reaches with L in force. -/
theorem inv_driven_to {s s1 : State} (h : Swapped s s1) (hv : s.cfgValid = true) (hr : s.run = .running) {L : Lines}
    {pos : Position} (hc : pos.isCycleStart s.cfg.depth = false)
    (hL : lineBefore s.light s.cfg s1.actFrame pos = L) (hl : pos.legal s.cfg = true) (hh : HoldFits s.cfg pos) :
    Inv { drive L s1 with seq := pos } := by
  rw [← h.cfgValid] at hv
  rw [← h.cfg] at hc hL hl hh
  rw [← h.light] at hL
  rw [← h.run] at hr
  have hfit : LinesFit { drive L s1 with seq := pos } := linesFit_of_program hc hL.symm
  exact inv_of_running { dataInv_drive h.data hv L with } hr hv hl hh hfit

/-- The tick at End drives END's word and moves to the cycle start (R210, R239). -/
theorem inv_end_of_cycle {s : State} (h : DataInv s) (hc : Configured s) (hr : s.run = .running) (F : Frame) :
    Inv { drive (lineAt s.light s.cfg F .endCycle) s with seq := cycleStart s.cfg.depth } := by
  obtain ⟨hv, ⟨-, -, hD, hD8, -⟩, -⟩ := hc
  obtain ⟨hcs, hl, hh⟩ := isCycleStart_cycleStart s.cfg hD hD8
  have hfit : LinesFit { drive (lineAt s.light s.cfg F .endCycle) s with seq := cycleStart s.cfg.depth } := by
    simp only [LinesFit, drive_cfg, hcs, if_true]
    exact ⟨rfl, rfl, rfl⟩
  exact inv_of_running { dataInv_drive h hv _ with } hr hv hl hh hfit

/-- No Timeline position is in a hold (R102). -/
theorem holdFits_of_timeline {cfg : Cfg} {pos : Position} (ht : cfg.strategy = .timeline) (hl : pos.legal cfg = true) :
    HoldFits cfg pos := by
  cases pos with
  | endCycle => trivial
  | body p n r q h =>
    simp only [Position.legal, ht, Bool.and_eq_true, decide_eq_true_eq] at hl
    intro hq
    omega

/-- TickTimeline answers a next state in the invariant (R236). -/
theorem tickTimeline_inv {s : State} (h : Inv s) (hr : s.run = .running) (ht : s.cfg.strategy = .timeline) :
    ∃ t, tickTimeline s = .next t ∧ Inv t := by
  have hd := (inv_iff.mp h).1
  have hv := h.active_configured (by simp [hr])
  have hc := h.configured hv
  obtain ⟨hl, -⟩ := h.running_position hr
  refine ⟨_, tickTimeline_eq hc ht hl, ?_⟩
  have hsw := swapped_ite (s.seq.isCycleStart s.cfg.depth) hd (swapped_adopt hd)
  cases hseq : s.seq with
  | endCycle => exact inv_end_of_cycle hd hc hr _
  | body p n r q k =>
    rw [hseq] at hl hsw
    obtain ⟨hcs, hL, hl'⟩ := lineBefore_next s.light s.cfg _ p n r q k hl ht
    exact inv_driven_to hsw hv hr hcs hL hl' (holdFits_of_timeline ht hl')

/-- A tick of the hold phase moves SEQ and nothing else of the block (R212, R243). -/
theorem inv_hold_tick {s : State} (h : Inv s) (hr : s.run = .running) (ht : s.cfg.strategy = .direct) {p n r q k}
    (hseq : s.seq = .body p n r q k) (hq : q.val = 198) :
    Inv { s with seq := if 1 < k then .body p n r 198 (k - 1) else nextRow p r, trace := .hold :: s.trace } := by
  have hd := (inv_iff.mp h).1
  have hv := h.active_configured (by simp [hr])
  obtain ⟨-, ⟨-, -, -, hD8, -⟩, -⟩ := h.configured hv
  obtain ⟨hl, hh⟩ := h.running_position hr
  obtain rfl : q = 198 := Fin.ext hq
  have hL := lines_of_linesFit (h.running_lines hr) (by simp [hseq, Position.isCycleStart])
  rw [hseq] at hl hh hL
  simp only [Position.legal, ht, Bool.and_eq_true, decide_eq_true_eq, beq_iff_eq] at hl
  obtain ⟨hp, rfl⟩ := hl
  split
  · next hk =>
    obtain ⟨-, hle⟩ := hh rfl
    have hle' : k - 1 ≤ dwell s.cfg p := by omega
    exact inv_of_running { hd with } hr hv (by simp [Position.legal, ht, hp]) (fun _ => ⟨by omega, hle'⟩)
      (linesFit_of_program (by simp [Position.isCycleStart]) hL)
  · obtain ⟨hcs, hnext, hl', hh'⟩ := nextRow_fit s.light s.cfg s.actFrame p r 197 (by decide) 0 hp ht hD8
    exact inv_of_running { hd with } hr hv hl' hh' (linesFit_of_program hcs (hL.trans hnext.symm))

/-- TickDirect answers a next state in the invariant (R243). -/
theorem tickDirect_inv {s : State} (h : Inv s) (hr : s.run = .running) (ht : s.cfg.strategy = .direct) :
    ∃ t, tickDirect s = .next t ∧ Inv t := by
  have hd := (inv_iff.mp h).1
  have hv := h.active_configured (by simp [hr])
  have hc := h.configured hv
  obtain ⟨-, ⟨-, -, -, hD8, -⟩, -⟩ := h.configured hv
  obtain ⟨hl, -⟩ := h.running_position hr
  cases hseq : s.seq with
  | endCycle =>
    refine ⟨_, tickDirect_eq h hr hc ht (by simp [hseq]), ?_⟩
    simp only [hseq]
    exact inv_end_of_cycle hd hc hr _
  | body p n r q k =>
    by_cases hq : q.val = 198
    · exact ⟨_, tickDirect_hold hv p n r q k hseq hq, inv_hold_tick h hr ht hseq hq⟩
    · refine ⟨_, tickDirect_eq h hr hc ht (by rintro p n r q k he; cases hseq.symm.trans he; exact hq), ?_⟩
      have hsw := swapped_ite s.seq.isRowStart hd (swapped_acquire hd)
      rw [hseq] at hl hsw
      simp only [Position.legal, ht, Bool.and_eq_true, decide_eq_true_eq, beq_iff_eq] at hl
      obtain ⟨hp, rfl⟩ := hl
      obtain ⟨hcs, hL, hl', hh'⟩ := nextDirect_fit s.light s.cfg _ p r q k hp ht hD8 (by omega)
      simp only [hseq]
      exact inv_driven_to hsw hv hr hcs hL hl' hh'

/-- No pulse is open before a row start (R181, R242). -/
theorem lineBefore_rowStart (light : Table) (cfg : Cfg) (F : Frame) {pos : Position} (hq : pos.isRowStart = true) :
    (lineBefore light cfg F pos).clk = false ∧ (lineBefore light cfg F pos).lat = true := by
  cases pos with
  | endCycle => cases hq
  | body p n r q h =>
    obtain rfl : q = 0 := by simpa [Position.isRowStart] using hq
    have hrow (p : Fin 8) (n : Fin 128) (r : Fin 32) (h : Nat) :
        (lineAt light cfg F (.body p n r 197 h)).clk = false ∧ (lineAt light cfg F (.body p n r 197 h)).lat = true :=
      ⟨rfl, rfl⟩
    unfold lineBefore
    split
    · next before hprev =>
      simp only [Position.prev] at hprev
      split_ifs at hprev <;> cases hprev
      · contradiction
      all_goals exact hrow _ _ _ _
    · exact ⟨rfl, rfl⟩

theorem lines_rowStart {s : State} (hf : LinesFit s) (hq : s.seq.isRowStart = true) :
    s.lines.clk = false ∧ s.lines.lat = true := by
  cases hc : s.seq.isCycleStart s.cfg.depth with
  | true =>
    simp only [LinesFit, hc, if_true] at hf
    exact ⟨hf.1, hf.2.1⟩
  | false =>
    rw [lines_of_linesFit hf hc]
    exact lineBefore_rowStart _ _ _ hq

/-- The tick of a RUNNING engine answers a next state in the invariant: the stop, or the strategy's tick (R235,
R237). -/
theorem tickRunning_inv {s : State} (h : Inv s) (hr : s.run = .running) : ∃ t, tickRunning s = .next t ∧ Inv t := by
  have hd := (inv_iff.mp h).1
  have hv := h.active_configured (by simp [hr])
  obtain ⟨hl, -⟩ := h.running_position hr
  unfold tickRunning
  rw [if_pos hv]
  split
  · next hstop =>
    obtain ⟨hq, -⟩ := Bool.and_eq_true_iff.mp hstop
    obtain ⟨hclk, hlat⟩ := lines_rowStart (h.running_lines hr) hq
    have hexec : exec .oed s = .next (drive s.lines.oed s) := driveLines_of_valid hv
    refine ⟨setRun .stopping (drive s.lines.oed s), by rw [hexec, thenDo_next], inv_iff.mpr ⟨?_, ?_⟩⟩
    · exact { dataInv_drive hd hv _ with }
    · exact (engineFits_of_stopping rfl).mpr ⟨hv, hclk, hlat, rfl⟩
  · cases ht : s.cfg.strategy with
    | timeline => exact tickTimeline_inv h hr ht
    | direct => exact tickDirect_inv h hr ht

/-- From the invariant a tick answers a next state, in the invariant (R235). -/
theorem tick_inv {s : State} (h : Inv s) : ∃ t, tick s = .next t ∧ Inv t := by
  unfold tick
  cases hr : s.run with
  | idle => exact ⟨s, rfl, h⟩
  | faulted => exact ⟨s, rfl, h⟩
  | running => exact tickRunning_inv h hr
  | stopping =>
    have hv := h.active_configured (by simp [hr])
    have hexec : exec .idle s = .next (drive Lines.g0 s) := driveLines_of_valid hv
    refine ⟨setRun .idle (drive Lines.g0 s), by rw [hexec]; rfl, inv_iff.mpr ⟨?_, ?_⟩⟩
    · exact { dataInv_drive (inv_iff.mp h).1 hv _ with }
    · exact (engineFits_of_idle rfl).mpr rfl

/-- From the invariant ENV's event answers a next state, in the invariant (R250). -/
theorem envStep_inv {s : State} (h : Inv s) (cause : Nat) : ∃ t, envStep cause s = .next t ∧ Inv t := by
  unfold envStep
  split
  · next hact =>
    have hv : s.cfgValid = true := h.active_configured (by rintro hr; simp [engineActive, hr] at hact)
    have hentry : faultEntry cause s = .next { drive s.lines.oed s with run := .faulted, err := ⟨3, cause, 0, 0⟩ } := by
      rw [faultEntry, driveLines_of_valid hv]; rfl
    refine ⟨_, hentry, inv_iff.mpr ⟨?_, ?_⟩⟩
    · exact { dataInv_drive (inv_iff.mp h).1 hv _ with }
    · exact (engineFits_of_faulted rfl).mpr ⟨hv, rfl, rfl⟩
  · exact ⟨s, rfl, h⟩

/-- EXT writes BUS alone, and no driven bit (R21). -/
theorem inv_extWrite {s : State} (h : Inv s) (w : BusWord) : Inv (extWrite w s) :=
  { dataInv_extWrite (inv_iff.mp h).1 w, h with }

/-! ## A host operation keeps the invariant -/

/-- An error in ERR and in the result, and nothing else (R276, R278). -/
theorem inv_raise {s : State} (h : Inv s) (e : BlockError) : Inv (raise e s) :=
  { h with
    faulted_dark := fun hr => by
      rw [raise_run] at hr
      rw [raise_lines, raise_err, if_pos hr]
      exact h.faulted_dark hr }

theorem inv_releaseLock {s : State} (h : Inv s) : Inv (releaseLock s) := { h with lock_configured := nofun }

theorem inv_waitForLock {s : State} (h : Inv s) {op : Instr} (hw : waitsForLock op = true) (hwf : op.wf = true) :
    Inv (waitForLock op s) :=
  { h with
    waiting_ops := fun i hi => by
      rcases List.mem_append.mp hi with hi | hi
      · exact h.waiting_ops i hi
      · obtain rfl := List.mem_singleton.mp hi
        exact ⟨hw, hwf⟩ }

/-- An accepted CONFIGURE of the unconfigured, and so idle, block (R131, R233). -/
theorem inv_acceptCfg {s : State} (h : Inv s) (hv : s.cfgValid = false) {cfg : Cfg} (hc : LegalCfg s.wMax cfg) :
    Inv (acceptCfg cfg s) := by
  have hno : s.cfgValid ≠ true := by simp [hv]
  have hidle : s.run = .idle := by
    by_contra hr
    exact hno (h.active_configured hr)
  have hpack : pack cfg.pins Lines.g0 < 2 ^ s.wMax := pack_lt hc.2.1 hc.1 _
  exact { h with
    bus_width := maskedWrite_lt h.bus_width (by rw [pack_and_driven]; exact hpack)
    configured := fun _ => ⟨rfl, hc, rfl⟩
    bus_lines := fun _ => by
      rw [acceptCfg_bus, acceptCfg_masks, maskedWrite_and, pack_and_driven]; rfl
    active_configured := fun _ => rfl
    idle_rest := fun _ => rfl
    running_position := fun hr => nomatch hidle.symm.trans hr
    running_lines := fun hr => nomatch hidle.symm.trans hr
    stopping_rest := fun hr => nomatch hidle.symm.trans hr
    faulted_dark := fun hr => nomatch hidle.symm.trans hr
    lock_configured := fun _ => rfl
    pend_newest := fun hp => absurd (h.pend_newest hp).1 hno
    unconfigured_blank := nofun }

/-- The generation shown is older than the next one, whatever its frame (R68, R158). -/
theorem act_older_than_next {s : State} (h : Inv s) (F : Frame) :
    s.actGen ≤ s.fbGen + 1 ∧ (s.actGen = s.fbGen + 1 → s.actFrame = F) := by
  obtain ⟨hle, -⟩ := h.act_not_newer
  exact ⟨Nat.le_succ_of_le hle, fun he => absurd he (Nat.ne_of_lt (Nat.lt_succ_of_le hle))⟩

/-- A newer frame in the frame buffer, pending in the Timeline strategy (R151, R160). -/
theorem inv_publishes {s : State} (h : Inv s) (hv : s.cfgValid = true) (ht : s.cfg.strategy = .timeline) (F : Frame) :
    Inv { s with
      fbFrame := F, fbGen := s.fbGen + 1, pendFrame := F, pendGen := s.fbGen + 1, pendValid := true, result := .ok } :=
  { h with
    pend_newest := fun _ => ⟨hv, ht, rfl, rfl⟩
    act_not_newer := act_older_than_next h F
    unconfigured_blank := fun hn => absurd (hv.symm.trans hn) (by decide) }

/-- A newer frame in the frame buffer of the Direct strategy, which has nothing pending (R151, R160). -/
theorem inv_replaces {s : State} (h : Inv s) (hv : s.cfgValid = true) (ht : s.cfg.strategy = .direct) (F : Frame) :
    Inv { s with fbFrame := F, fbGen := s.fbGen + 1, result := .ok } :=
  { h with
    pend_newest := fun hp => by
      obtain ⟨-, ht', -⟩ := h.pend_newest hp
      exact absurd (ht.symm.trans ht') (by decide)
    act_not_newer := act_older_than_next h F
    unconfigured_blank := fun hn => absurd (hv.symm.trans hn) (by decide) }

/-- START of the idle block: the cycle start, with the lines G0 (R233, R304). -/
theorem inv_starts {s : State} (h : Inv s) (hv : s.cfgValid = true) (hr : s.run = .idle) :
    Inv (respond .ok (setRun .running { clearStopreq s with seq := cycleStart s.cfg.depth })) := by
  obtain ⟨-, ⟨-, -, hD, hD8, -⟩, -⟩ := h.configured hv
  obtain ⟨hcs, hl, hh⟩ := isCycleStart_cycleStart s.cfg hD hD8
  have hlines : s.lines = Lines.g0 := h.idle_rest hr
  refine inv_of_running { (inv_iff.mp h).1 with } rfl hv hl hh ?_
  simp only [LinesFit, respond_cfg, respond_lines, setRun_cfg, setRun_lines, clearStopreq_cfg, clearStopreq_lines,
    respond_seq, setRun_seq, hcs, if_true, hlines]
  exact ⟨rfl, rfl, rfl⟩

/-- RESET: the state after power-on, but for BUS, the parameters and the waiting operations (R252, R300). -/
theorem inv_resets {s : State} (h : Inv s) :
    Inv { State.reset with
      wMax := s.wMax, bus := s.bus, frozen := heldBits s, light := s.light, gamma := s.gamma,
      schedule := s.schedule, waiting := s.waiting, trace := s.trace, result := .ok } :=
  have hreset : Inv State.reset := invariantAtReset
  { hreset with
    bus_width := h.bus_width
    tables := h.tables
    configured := nofun
    bus_lines := nofun
    waiting_ops := h.waiting_ops }

/-- Every effect of a host operation keeps the invariant. -/
theorem hostEffect_keeps_inv {op : Instr} {s t : State} (h : Inv s) (hwf : op.wf = true) (he : HostEffect op s t) :
    Inv t := by
  have hunlock {u : State} (hu : u = s ∧ s.fbBusy = false ∨ u = releaseLock s) : Inv u := by
    rcases hu with ⟨rfl, -⟩ | rfl
    · exact h
    · exact inv_releaseLock h
  cases he with
  | responds r => exact { h with }
  | rejects e => exact inv_raise h e
  | rejectsAndReleases e _ => exact inv_raise (inv_releaseLock h) e
  | waits _ hw => exact inv_waitForLock h hw hwf
  | accepts cfg hv hc => exact { inv_acceptCfg h hv hc with }
  | publishes F u hu hv ht =>
    have hu' := hunlock hu
    rcases hu with ⟨rfl, -⟩ | rfl
    · exact inv_publishes hu' hv ht F
    · exact inv_publishes hu' hv ht F
  | replaces F u hu hv ht =>
    have hu' := hunlock hu
    rcases hu with ⟨rfl, -⟩ | rfl
    · exact inv_replaces hu' hv ht F
    · exact inv_replaces hu' hv ht F
  | locks hv _ => exact { h with lock_configured := fun _ => hv }
  | starts hv hr => exact inv_starts h hv hr
  | stops => exact { h with }
  | resets _ => exact inv_resets h

/-! ## The operations a transaction can carry -/

theorem readThen_eq_ok {α β : Type} {d : Decoded α} {f : α → List Byte → Decoded β} {r : β × List Byte}
    (h : readThen d f = .ok r) : ∃ a bs, d = .ok (a, bs) ∧ f a bs = .ok r := by
  cases d with
  | error e => cases h
  | ok x => exact ⟨x.1, x.2, rfl, h⟩

theorem takePixels_length {n : Nat} {bs rest : List Byte} {ps : List Pixel} (h : takePixels n bs = .ok (ps, rest)) :
    ps.length = n := by
  induction n generalizing bs ps rest with
  | zero => cases h; rfl
  | succ n ih =>
    obtain ⟨p, bs1, -, h⟩ := readThen_eq_ok h
    obtain ⟨qs, bs2, hqs, h⟩ := readThen_eq_ok h
    cases h
    rw [List.length_cons, ih hqs]

/-- A decoded grid carries the pixels of its dimensions (R99, U15). -/
theorem takeGrid_wf {bs rest : List Byte} {g : Grid} (h : takeGrid bs = .ok (g, rest)) : g.wf = true := by
  obtain ⟨w, bs1, -, h⟩ := readThen_eq_ok h
  obtain ⟨k, bs2, -, h⟩ := readThen_eq_ok h
  obtain ⟨ps, bs3, hps, h⟩ := readThen_eq_ok h
  cases h
  simp [Grid.wf, takePixels_length hps]

theorem takeConfigure_wf {bs rest : List Byte} {i : Instr} (h : takeConfigure bs = .ok (i, rest)) : i.wf = true := by
  obtain ⟨pins, bs1, -, h⟩ := readThen_eq_ok h
  obtain ⟨width, bs2, -, h⟩ := readThen_eq_ok h
  obtain ⟨depth, bs3, -, h⟩ := readThen_eq_ok h
  obtain ⟨strategy, bs4, -, h⟩ := readThen_eq_ok h
  obtain ⟨chanMap, bs5, -, h⟩ := readThen_eq_ok h
  obtain ⟨dwellUnit, bs6, -, h⟩ := readThen_eq_ok h
  cases h
  rfl

/-- A decoded operation is well-formed. -/
theorem decode_wf {bytes rest : List Byte} {i : Instr} (h : decode bytes = .ok (i, rest)) : i.wf = true := by
  cases bytes with
  | nil => cases h
  | cons code bs =>
    simp only [decode, decodeBody] at h
    split at h
    case h_1 => exact takeConfigure_wf h
    case h_2 | h_3 | h_5 => -- FB_REPLACE, FB_INGEST, FB_WRITE_COMMIT: a grid
      obtain ⟨g, bs', hg, h⟩ := readThen_eq_ok h
      cases h
      exact takeGrid_wf hg
    case h_11 | h_12 | h_14 | h_20 | h_24 => -- one operand that any value is fit for
      obtain ⟨a, bs', -, h⟩ := readThen_eq_ok h
      cases h
      rfl
    case h_25 => cases h -- no such code
    all_goals (cases h; rfl)

/-! ## Every step keeps the invariant -/

/-- No micro-operation needs the lock. -/
theorem not_micro_of_waitsForLock {i : Instr} (h : waitsForLock i = true) : i.isMicro = false := by
  cases i <;> simp_all [waitsForLock, Instr.isMicro]

theorem inv_schedule {s : State} (h : Inv s) (later : List AgentStep) : Inv { s with schedule := later } := { h with }

theorem inv_fewer_waiting {s : State} (h : Inv s) {l : List Instr} (hl : l ⊆ s.waiting) :
    Inv { s with waiting := l } :=
  { h with waiting_ops := fun i hi => h.waiting_ops i (hl hi) }

/-- A waiting operation that runs, off the list, keeps the invariant. -/
theorem waiting_exec_keeps_inv {s t : State} (h : Inv s) {i : Instr} {l : List Instr} (hi : i ∈ s.waiting)
    (hl : l ⊆ s.waiting) (he : exec i { s with waiting := l } = .next t) : Inv t := by
  obtain ⟨hw, hwf⟩ := h.waiting_ops i hi
  exact hostEffect_keeps_inv (inv_fewer_waiting h hl) hwf (exec_host_effect (not_micro_of_waitsForLock hw) he)

theorem inv_of_exists_next {o : Answer} {t : State} (h : ∃ u, o = .next u ∧ Inv u) (ht : o = .next t) : Inv t := by
  obtain ⟨u, hu, hinv⟩ := h
  cases hu.symm.trans ht
  exact hinv

theorem agentStep_keeps_inv {a : AgentStep} {s t : State} (h : Inv s) (ht : agentStep a s = .next t) : Inv t := by
  obtain ⟨bytes, rest, i, -, hdec, -, hm, he⟩ | ⟨k, -, rfl | ⟨i, hk, -, he⟩⟩ | ⟨-, he⟩ | ⟨w, -, rfl⟩ |
    ⟨c, rfl, -⟩ := agentStep_eq_next ht
  · exact hostEffect_keeps_inv h (decode_wf hdec) (exec_host_effect hm he)
  · exact h
  · exact waiting_exec_keeps_inv h (List.mem_of_getElem? hk) List.eraseIdx_subset he
  · exact inv_of_exists_next (tick_inv h) he
  · exact inv_extWrite h w
  · exact inv_of_exists_next (envStep_inv h c) ht

/-- Settles O44: a host operation by its effect, a tick and ENV's fault by the state they answer, EXT by the bits it
keeps. -/
theorem invariantKeptByStep : Obligations.InvariantKeptByStep := by
  intro s t h ht
  obtain ⟨a, later, -, ha⟩ | ⟨-, -, i, rest, hw, he⟩ | ⟨-, -, he⟩ := step_eq_next ht
  · exact agentStep_keeps_inv (inv_schedule h later) ha
  · exact waiting_exec_keeps_inv h (by simp [hw]) (by simp [hw]) he
  · exact inv_of_exists_next (tick_inv h) he

/-! ## Which steps answer no next state -/

section Answers

variable {s : State} {i : Instr} {f : State → Answer}

theorem whenLockFree_next (h : s.fbBusy = false → ∃ t, f s = .next t) : ∃ t, whenLockFree i s f = .next t := by
  cases hb : s.fbBusy with
  | false => simpa [whenLockFree, lockFree, hb] using h hb
  | true => exact ⟨waitForLock i s, by simp [whenLockFree, lockFree, hb]⟩

theorem whenConfigured_next (h : s.cfgValid = true → ∃ t, f s = .next t) : ∃ t, whenConfigured s f = .next t := by
  cases hv : s.cfgValid with
  | false => exact ⟨raise .notConfigured s, by simp [whenConfigured, hv]⟩
  | true => simpa [whenConfigured, hv] using h hv

end Answers

theorem installFrame_next {s : State} (hv : s.cfgValid = true) (F : Frame) : ∃ t, installFrame F s = .next t := by
  cases ht : s.cfg.strategy <;> simp [installFrame, publish, hv, ht]

/-- A 64×64 grid that is well-formed carries a frame (R159, U15). -/
theorem gridFrame_of_wf {g : Grid} (hwf : g.wf = true) (h64 : is64 g = true) : ∃ F, gridFrame g = some F := by
  simp only [Grid.wf, is64, Config.frameSide, Bool.and_eq_true, beq_iff_eq] at hwf h64
  obtain ⟨hw, hh⟩ := h64
  rw [hw, hh] at hwf
  exact ⟨_, dif_pos hwf⟩

theorem replaceFrame_next {s : State} {g : Grid} (hv : s.cfgValid = true) (hwf : g.wf = true) (f : Frame → Frame) :
    ∃ t, replaceFrame g f s = .next t := by
  unfold replaceFrame
  split
  · next h64 =>
    obtain ⟨F, hF⟩ := gridFrame_of_wf hwf h64
    simpa only [hF] using installFrame_next hv (f F)
  · exact ⟨_, rfl⟩

/-- From the invariant a well-formed host operation answers a next state, but for a commit without the lock (R154,
U4). -/
theorem exec_host_answers {s : State} {i : Instr} (h : Inv s) (hm : i.isMicro = false) (hwf : i.wf = true) :
    (∃ t, exec i s = .next t) ∨
      ∃ g, i = .fbWriteCommit g ∧ s.fbBusy = false ∧ exec i s = .refused .commitWithoutBegin := by
  cases i with
  | configure pins width depth strategy chanMap dwellUnit =>
    refine .inl ?_
    simp only [exec, execConfigure]
    split
    · exact ⟨_, rfl⟩
    · exact ⟨_, rfl⟩
  | fbReplace g =>
    simp only [exec, execFbReplace]
    exact .inl (whenLockFree_next fun _ => whenConfigured_next fun hv => replaceFrame_next hv hwf _)
  | fbIngest g =>
    simp only [exec, execFbIngest]
    exact .inl (whenLockFree_next fun _ => whenConfigured_next fun hv => replaceFrame_next hv hwf _)
  | fbWriteBegin =>
    simp only [exec, execFbWriteBegin]
    exact .inl (whenLockFree_next fun _ => whenConfigured_next fun _ => ⟨_, rfl⟩)
  | fbWriteCommit g =>
    simp only [exec, execFbWriteCommit]
    cases hb : s.fbBusy with
    | false => exact .inr ⟨g, rfl, rfl, rfl⟩
    | true => exact .inl (replaceFrame_next (s := releaseLock s) (h.lock_configured hb) hwf _)
  | fbSnapshot =>
    simp only [exec, execFbSnapshot]
    exact .inl (whenLockFree_next fun _ => ⟨_, rfl⟩)
  | start =>
    refine .inl ?_
    simp only [exec, execStart]
    split
    · split <;> exact ⟨_, rfl⟩
    · exact ⟨_, rfl⟩
  | stop => exact .inl ⟨_, rfl⟩
  | status => exact .inl ⟨_, rfl⟩
  | reset => exact .inl ⟨_, rfl⟩
  | lightnessCorrect v => exact .inl ⟨_, rfl⟩
  | gammaCorrect v => exact .inl ⟨_, rfl⟩
  | _ => cases hm

/-- A waiting operation that runs answers a next state: a commit does not wait. -/
theorem waiting_exec_next {s : State} (h : Inv s) {i : Instr} {l : List Instr} (hi : i ∈ s.waiting)
    (hl : l ⊆ s.waiting) : ∃ t, exec i { s with waiting := l } = .next t := by
  obtain ⟨hw, hwf⟩ := h.waiting_ops i hi
  obtain hn | ⟨g, rfl, -⟩ := exec_host_answers (inv_fewer_waiting h hl) (not_micro_of_waitsForLock hw) hwf
  · exact hn
  · cases hw

theorem resumeStep_next {s : State} (h : Inv s) (k : Nat) : ∃ t, resumeStep k s = .next t := by
  unfold resumeStep
  split
  · exact ⟨s, rfl⟩
  · next i hk =>
    split
    · exact waiting_exec_next h (List.mem_of_getElem? hk) List.eraseIdx_subset
    · exact ⟨s, rfl⟩

theorem tick_next {s : State} (h : Inv s) : ∃ t, tick s = .next t := by
  obtain ⟨t, ht, -⟩ := tick_inv h
  exact ⟨t, ht⟩

theorem unscheduledStep_next {s : State} (h : Inv s) : ∃ t, unscheduledStep s = .next t := by
  unfold unscheduledStep
  split
  · exact tick_next h
  · split
    · exact resumeStep_next h 0
    · exact tick_next h

theorem agentStep_next {s : State} (h : Inv s) {a : AgentStep} (ha : ∀ bytes, a ≠ .host bytes) :
    ∃ t, agentStep a s = .next t := by
  cases a with
  | host bytes => exact absurd rfl (ha bytes)
  | resume k => exact resumeStep_next h k
  | tick => exact tick_next h
  | ext w => exact ⟨_, rfl⟩
  | envFault c =>
    obtain ⟨t, ht, -⟩ := envStep_inv h c
    exact ⟨t, ht⟩

theorem step_of_schedule_nil {s : State} (hs : s.schedule = []) : step s = unscheduledStep s := by
  simp only [step, nextStep, hs]

/-- From the invariant a step that is no host transaction's answers a next state. -/
theorem step_next {s : State} (h : Inv s) (hno : ∀ bytes later, s.schedule ≠ .host bytes :: later) :
    ∃ t, step s = .next t := by
  cases hs : s.schedule with
  | nil => rw [step_of_schedule_nil hs]; exact unscheduledStep_next h
  | cons a later =>
    rw [step_of_schedule_cons hs]
    exact agentStep_next (inv_schedule h later) fun bytes ha => hno bytes later (by rw [hs, ha])

/-- Why a host transaction may be refused in the invariant. -/
def RefusedFor (s : State) (bytes : List Byte) (why : Refusal) : Prop :=
  (∃ e : DecodeError, decode bytes = .error e ∧ why = .badTransaction e) ∨
  ∃ (i : Instr) (rest : List Byte), decode bytes = .ok (i, rest) ∧
    (((∃ b ∈ rest, b ≠ 0) ∧ why = .trailingBytes) ∨
      (i.isMicro = true ∧ why = .microOperationFromHost) ∨
      (∃ g : Grid, i = .fbWriteCommit g ∧ s.fbBusy = false ∧ why = .commitWithoutBegin))

/-- From the invariant a host transaction answers a next state or is refused for one of the named reasons. -/
theorem hostStep_answers {s : State} (h : Inv s) (bytes : List Byte) :
    (∃ t, hostStep bytes s = .next t) ∨ ∃ why, hostStep bytes s = .refused why ∧ RefusedFor s bytes why := by
  cases hdec : decode bytes with
  | error e => exact .inr ⟨_, hostStep_of_decode_error hdec, .inl ⟨e, hdec, rfl⟩⟩
  | ok x =>
    obtain ⟨i, rest⟩ := x
    by_cases hz : ∃ b ∈ rest, b ≠ 0
    · exact .inr ⟨_, hostStep_of_trailing_bytes hdec hz, .inr ⟨i, rest, hdec, .inl ⟨hz, rfl⟩⟩⟩
    · have hstep := hostStep_of_zero_padding (s := s) hdec (by simpa using hz)
      cases hm : i.isMicro with
      | true =>
        rw [hm] at hstep
        exact .inr ⟨_, hstep, .inr ⟨i, rest, hdec, .inr (.inl ⟨hm, rfl⟩)⟩⟩
      | false =>
        have hexec : hostStep bytes s = exec i s := by simpa [hm] using hstep
        rw [hexec]
        obtain hn | ⟨g, hi, hb, hr⟩ := exec_host_answers h hm (decode_wf hdec)
        · exact .inl hn
        · exact .inr ⟨_, hr, .inr ⟨i, rest, hdec, .inr (.inr ⟨g, hi, hb, rfl⟩)⟩⟩

/-- From the invariant a step answers a next state, or is a host transaction refused for a named reason. -/
theorem step_answers {s : State} (h : Inv s) :
    (∃ t, step s = .next t) ∨
      ∃ bytes later why, s.schedule = .host bytes :: later ∧ step s = .refused why ∧ RefusedFor s bytes why := by
  by_cases hhost : ∃ bytes later, s.schedule = .host bytes :: later
  · obtain ⟨bytes, later, hs⟩ := hhost
    rw [step_of_schedule_cons hs]
    obtain hn | ⟨why, hr, hwhy⟩ := hostStep_answers (inv_schedule h later) bytes
    · exact .inl hn
    · exact .inr ⟨bytes, later, why, hs, hr, hwhy⟩
  · exact .inl (step_next h fun bytes later hs => hhost ⟨bytes, later, hs⟩)

/-- Settles O45: every answer in the invariant is a next state or a refusal for a named reason. -/
theorem invariantStatesStopOnlyOnRefusedTransactions :
    Obligations.InvariantStatesStopOnlyOnRefusedTransactions := by
  intro s h
  refine ⟨fun f hf => ?_, fun hno => step_next h hno, fun bytes later why hs hr => ?_⟩
  · obtain ⟨t, ht⟩ | ⟨_, _, _, -, hr, -⟩ := step_answers h
    · cases ht.symm.trans hf
    · cases hr.symm.trans hf
  · obtain ⟨t, ht⟩ | ⟨bytes', later', why', hs', hr', hwhy⟩ := step_answers h
    · cases ht.symm.trans hr
    · cases hs.symm.trans hs'
      cases hr.symm.trans hr'
      exact hwhy

/-! ## What no step but RESET changes -/

/-- t holds the configuration, the masks and the parameters of s. -/
structure SameSetup (s t : State) : Prop where
  cfgValid : t.cfgValid = s.cfgValid
  cfg : t.cfg = s.cfg
  masks : t.masks = s.masks
  light : t.light = s.light
  gamma : t.gamma = s.gamma
  wMax : t.wMax = s.wMax

theorem sameSetup_refl (s : State) : SameSetup s s := ⟨rfl, rfl, rfl, rfl, rfl, rfl⟩

theorem sameSetup_trans {s t u : State} (h : SameSetup s t) (h' : SameSetup t u) : SameSetup s u :=
  ⟨h'.cfgValid.trans h.cfgValid, h'.cfg.trans h.cfg, h'.masks.trans h.masks, h'.light.trans h.light,
    h'.gamma.trans h.gamma, h'.wMax.trans h.wMax⟩

theorem sameSetup_ite {s s1 : State} (c : Prop) [Decidable c] (h : SameSetup s s1) :
    SameSetup s (if c then s1 else s) := by
  split
  · exact h
  · exact sameSetup_refl s

theorem sameSetup_lines (s : State) (L : Lines) : SameSetup s { s with lines := L } := { sameSetup_refl s with }

theorem sameSetup_adopt (s : State) : SameSetup s (adopt s) :=
  ⟨adopt_cfgValid s, adopt_cfg s, adopt_masks s, adopt_light s, adopt_gamma s, adopt_wMax s⟩

theorem sameSetup_acquire (s : State) : SameSetup s (acquire s) :=
  ⟨acquire_cfgValid s, acquire_cfg s, acquire_masks s, acquire_light s, acquire_gamma s, acquire_wMax s⟩

theorem exec_micro_sameSetup {i : Instr} {s t : State} (hm : i.isMicro = true) (h : exec i s = .next t) :
    SameSetup s t := by
  by_cases hh : ∃ k, i = .hold k
  · obtain ⟨k, rfl⟩ := hh
    obtain ⟨-, p, n, r, q, k', -, rfl⟩ := execHold_eq_next h
    exact { sameSetup_refl s with }
  · obtain ⟨-, rfl⟩ := exec_micro_eq_next hm (fun k hk => hh ⟨k, hk⟩) h
    exact { sameSetup_refl s with }

/-- A micro-operation, after what the tick does to SEQ and ENG.run. -/
theorem thenDo_micro_sameSetup {i : Instr} {s t : State} {f : State → State} (h : thenDo (exec i s) f = .next t)
    (hm : i.isMicro = true) (hf : ∀ u, SameSetup u (f u)) : SameSetup s t := by
  obtain ⟨u, hu, rfl⟩ := thenDo_eq_next h
  exact sameSetup_trans (exec_micro_sameSetup hm hu) (hf u)

theorem tickTimeline_sameSetup {s t : State} (h : tickTimeline s = .next t) : SameSetup s t := by
  have hswap := sameSetup_ite (s.seq.isCycleStart s.cfg.depth = true) (sameSetup_adopt s)
  have hexec := thenDo_micro_sameSetup h (microOp_micro _) fun u => { sameSetup_refl u with }
  exact sameSetup_trans (sameSetup_trans hswap (sameSetup_lines _ _)) hexec

theorem tickDirect_sameSetup {s t : State} (h : tickDirect s = .next t) : SameSetup s t := by
  unfold tickDirect at h
  split at h
  · exact thenDo_micro_sameSetup h rfl fun u => { sameSetup_refl u with }
  · next p n r q k _ =>
    split at h
    · exact exec_micro_sameSetup rfl h
    · have hswap := sameSetup_ite (q.val = 0) (sameSetup_acquire s)
      have hstart (u : State) :=
        sameSetup_ite ((Position.body p n r q k).isCycleStart s.cfg.depth = true) (sameSetup_lines u Lines.g0)
      have hexec := thenDo_micro_sameSetup h (microOp_micro _) fun u => { sameSetup_refl u with }
      exact sameSetup_trans (sameSetup_trans hswap (hstart _)) hexec

/-- A tick writes neither the configuration nor a parameter (R67). -/
theorem tick_sameSetup {s t : State} (h : tick s = .next t) : SameSetup s t := by
  have hrun (run : Run) (u : State) : SameSetup u (setRun run u) := { sameSetup_refl u with }
  unfold tick at h
  split at h
  · cases h; exact sameSetup_refl s
  · unfold tickRunning at h
    split at h
    · split at h
      · exact thenDo_micro_sameSetup h rfl (hrun .stopping)
      · split at h
        · split at h
          · exact tickTimeline_sameSetup h
          · exact tickDirect_sameSetup h
        · cases h
    · cases h
  · exact thenDo_micro_sameSetup h rfl (hrun .idle)
  · cases h; exact sameSetup_refl s

/-- A step executes an operation, which is RESET only if HOST's or a waiting one is, or it keeps the setup. -/
theorem step_exec_or_sameSetup {s t : State} (h : step s = .next t) :
    (∃ i later l, exec i { s with schedule := later, waiting := l } = .next t ∧
      (i = .reset → ResetScheduled s ∨ ResetResumed s)) ∨ SameSetup s t := by
  obtain ⟨a, later, hs, ha⟩ | ⟨hs, -, i, rest, hw, he⟩ | ⟨-, -, he⟩ := step_eq_next h
  · obtain ⟨bytes, rest, i, rfl, hdec, hz, -, he⟩ | ⟨k, rfl, rfl | ⟨i, hk, -, he⟩⟩ | ⟨rfl, he⟩ | ⟨w, rfl, rfl⟩ |
      ⟨c, rfl, ⟨-, he⟩ | ⟨-, rfl⟩⟩ := agentStep_eq_next ha
    · exact .inl ⟨i, later, s.waiting, he, fun hi => .inl ⟨bytes, rest, later, hs, hi ▸ hdec, hz⟩⟩
    · exact .inr { sameSetup_refl s with }
    · exact .inl ⟨i, later, _, he, fun hi => .inr (.inl ⟨k, later, hs, hi ▸ hk⟩)⟩
    · exact .inr { tick_sameSetup he with }
    · exact .inr { sameSetup_refl s with }
    · obtain ⟨-, rfl⟩ := faultEntry_eq_next he
      exact .inr { sameSetup_refl s with }
    · exact .inr { sameSetup_refl s with }
  · exact .inl ⟨i, s.schedule, rest, he, fun hi => .inr (.inr ⟨hs, by simp [hw, hi]⟩)⟩
  · exact .inr (tick_sameSetup he)

theorem hostEffect_tables {op : Instr} {s t : State} (h : HostEffect op s t) :
    t.light = s.light ∧ t.gamma = s.gamma ∧ t.wMax = s.wMax := by
  cases h with
  | publishes F u hu _ _ => rcases hu with ⟨rfl, -⟩ | rfl <;> exact ⟨rfl, rfl, rfl⟩
  | replaces F u hu _ _ => rcases hu with ⟨rfl, -⟩ | rfl <;> exact ⟨rfl, rfl, rfl⟩
  | _ => exact ⟨rfl, rfl, rfl⟩

theorem exec_tables {i : Instr} {s t : State} (h : exec i s = .next t) :
    t.light = s.light ∧ t.gamma = s.gamma ∧ t.wMax = s.wMax := by
  cases hm : i.isMicro with
  | false => exact hostEffect_tables (exec_host_effect hm h)
  | true =>
    have hset := exec_micro_sameSetup hm h
    exact ⟨hset.light, hset.gamma, hset.wMax⟩

/-- Settles O55: no operation writes the parameters, and every other step keeps the setup. -/
theorem tablesNeverChange : Obligations.TablesNeverChange := by
  intro s t h
  obtain ⟨i, later, l, he, -⟩ | hset := step_exec_or_sameSetup h
  · exact exec_tables (s := { s with schedule := later, waiting := l }) he
  · exact ⟨hset.light, hset.gamma, hset.wMax⟩

/-- What RESET leaves (R252, R300). -/
def ResetFrom (s t : State) : Prop :=
  t.cfgValid = false ∧ t.run = .idle ∧ t.fbGen = 0 ∧ t.bus = s.bus ∧ t.result = .ok

theorem hostEffect_configuration {op : Instr} {s t : State} (hv : s.cfgValid = true) (h : HostEffect op s t) :
    (t.cfgValid = true ∧ t.cfg = s.cfg ∧ t.masks = s.masks) ∨ (op = .reset ∧ ResetFrom s t) := by
  cases h with
  | accepts cfg hn _ => exact absurd (hv.symm.trans hn) (by decide)
  | publishes F u hu _ _ => rcases hu with ⟨rfl, -⟩ | rfl <;> exact .inl ⟨hv, rfl, rfl⟩
  | replaces F u hu _ _ => rcases hu with ⟨rfl, -⟩ | rfl <;> exact .inl ⟨hv, rfl, rfl⟩
  | resets hop => exact .inr ⟨hop, rfl, rfl, rfl, rfl, rfl⟩
  | _ => exact .inl ⟨hv, rfl, rfl⟩

theorem exec_configuration {i : Instr} {s t : State} (hv : s.cfgValid = true) (h : exec i s = .next t) :
    (t.cfgValid = true ∧ t.cfg = s.cfg ∧ t.masks = s.masks) ∨ (i = .reset ∧ ResetFrom s t) := by
  cases hm : i.isMicro with
  | false => exact hostEffect_configuration hv (exec_host_effect hm h)
  | true =>
    have hset := exec_micro_sameSetup hm h
    exact .inl ⟨hset.cfgValid.trans hv, hset.cfg, hset.masks⟩

/-- RESET never waits (R252). -/
theorem reset_not_waiting {s : State} (h : Inv s) : Instr.reset ∉ s.waiting := by
  intro hmem
  cases (h.waiting_ops _ hmem).1

theorem not_inv_of_resetResumed {s : State} (h : ResetResumed s) : ¬ Inv s := by
  intro hinv
  obtain ⟨k, later, -, hk⟩ | ⟨-, hk⟩ := h
  · exact reset_not_waiting hinv (List.mem_of_getElem? hk)
  · exact reset_not_waiting hinv (List.mem_of_getElem? hk)

/-- Settles O54: of the operations RESET alone changes a held configuration, and every other step keeps the setup. -/
theorem configurationHeldUntilReset : Obligations.ConfigurationHeldUntilReset := by
  intro s t h hv
  obtain ⟨i, later, l, he, hreset⟩ | hset := step_exec_or_sameSetup h
  · obtain hkept | ⟨hi, hfrom⟩ := exec_configuration (s := { s with schedule := later, waiting := l }) hv he
    · exact .inl hkept
    · exact .inr ⟨(hreset hi).imp_right fun hr => ⟨hr, not_inv_of_resetResumed hr⟩, hfrom⟩
  · exact .inl ⟨hset.cfgValid.trans hv, hset.cfg, hset.masks⟩

/-! ## FAULTED is held until RESET -/

/-- t is as faulted as s: the fault record, the lines and the trace stand, and so do the driven bits of BUS. -/
structure FaultHeld (s t : State) : Prop where
  run : t.run = .faulted
  err : t.err = s.err
  lines : t.lines = s.lines
  trace : t.trace = s.trace
  driven : t.bus &&& s.masks.driven = s.bus &&& s.masks.driven

theorem faultHeld_refl {s : State} (hr : s.run = .faulted) : FaultHeld s s := ⟨hr, rfl, rfl, rfl, rfl⟩

/-- In FAULTED, which has a configuration, a host operation other than RESET holds the fault (R277, R278). -/
theorem hostEffect_of_faulted {op : Instr} {s t : State} (hv : s.cfgValid = true) (hr : s.run = .faulted)
    (h : HostEffect op s t) :
    FaultHeld s t ∨ (op = .reset ∧ t.run = .idle ∧ t.cfgValid = false ∧ t.err = ⟨0, 0, 0, 0⟩) := by
  have hheld := faultHeld_refl hr
  cases h with
  | rejects e => exact .inl { hheld with err := by rw [raise_err, if_pos hr] }
  | rejectsAndReleases e _ =>
    exact .inl { hheld with err := by rw [raise_err, releaseLock_run, if_pos hr, releaseLock_err] }
  | accepts cfg hn _ => exact absurd (hv.symm.trans hn) (by decide)
  | publishes F u hu _ _ => rcases hu with ⟨rfl, -⟩ | rfl <;> exact .inl { hheld with }
  | replaces F u hu _ _ => rcases hu with ⟨rfl, -⟩ | rfl <;> exact .inl { hheld with }
  | starts _ hi => cases hi.symm.trans hr
  | resets hop => exact .inr ⟨hop, rfl, rfl, rfl⟩
  | _ => exact .inl { hheld with }

/-- A waiting operation is no RESET, so it holds the fault. -/
theorem waiting_exec_faultHeld {s t : State} (h : Inv s) (hr : s.run = .faulted) {i : Instr} {l : List Instr}
    (hi : i ∈ s.waiting) (he : exec i { s with waiting := l } = .next t) : FaultHeld s t := by
  have hv := h.active_configured (by simp [hr])
  have hm := not_micro_of_waitsForLock (h.waiting_ops i hi).1
  obtain hheld | ⟨rfl, -⟩ := hostEffect_of_faulted (s := { s with waiting := l }) hv hr (exec_host_effect hm he)
  · exact { hheld with }
  · exact absurd hi (reset_not_waiting h)

theorem tick_of_faulted {s : State} (hr : s.run = .faulted) : tick s = .next s := by
  simp only [tick, hr]

theorem faultHeld_extWrite {s : State} (hv : s.cfgValid = true) (hr : s.run = .faulted) (w : BusWord) :
    FaultHeld s (extWrite w s) :=
  { faultHeld_refl hr with driven := by rw [extWrite_bus, heldBits_of_valid hv, maskedWrite_and] }

/-- Settles O56: in FAULTED the engine and ENV have no step, EXT keeps the driven bits, and of the operations RESET
alone, which only HOST issues, lets the fault go. -/
theorem faultedUntilReset : Obligations.FaultedUntilReset := by
  intro s t h ht hr
  suffices FaultHeld s t ∨ (ResetScheduled s ∧ t.run = .idle ∧ t.cfgValid = false ∧ t.err = ⟨0, 0, 0, 0⟩) from
    this.imp_left fun hh => ⟨hh.run, hh.err, hh.lines, hh.trace, hh.driven⟩
  have hv := h.active_configured (by simp [hr])
  obtain ⟨a, later, hs, ha⟩ | ⟨-, -, i, rest, hw, he⟩ | ⟨-, -, he⟩ := step_eq_next ht
  · have h' := inv_schedule h later
    obtain ⟨bytes, rest, i, rfl, hdec, hz, hm, he⟩ | ⟨k, -, rfl | ⟨i, hk, -, he⟩⟩ | ⟨-, he⟩ | ⟨w, -, rfl⟩ |
      ⟨c, -, ⟨hact, -⟩ | ⟨-, rfl⟩⟩ := agentStep_eq_next ha
    · obtain hheld | ⟨rfl, hreset⟩ :=
        hostEffect_of_faulted (s := { s with schedule := later }) hv hr (exec_host_effect hm he)
      · exact .inl { hheld with }
      · exact .inr ⟨⟨bytes, rest, later, hs, hdec, hz⟩, hreset⟩
    · exact .inl { faultHeld_refl hr with }
    · exact .inl { waiting_exec_faultHeld h' hr (List.mem_of_getElem? hk) he with }
    · cases (tick_of_faulted (s := { s with schedule := later }) hr).symm.trans he
      exact .inl { faultHeld_refl hr with }
    · exact .inl { faultHeld_extWrite (s := { s with schedule := later }) hv hr w with }
    · simp [engineActive, hr] at hact
    · exact .inl { faultHeld_refl hr with }
  · exact .inl (waiting_exec_faultHeld h hr (by simp [hw]) he)
  · cases (tick_of_faulted hr).symm.trans he
    exact .inl (faultHeld_refl hr)

end Sys2Proof.Proofs

/-! PROOFS. The family of 20_memory.md: who gets a step while an operation waits (R71), what a tick may change (R67),
how the frame generations move (R68, R70), and the bound on how long one is pending (R69). -/

namespace Sys2Proof.Proofs

open Sys2Proof Sys2Proof.Machine

/-! ## Waiting operations -/

section Waiting

variable {s : State}

theorem resumeStep_of_free {k : Nat} {i : Instr} (hk : s.waiting[k]? = some i) (hb : s.fbBusy = false) :
    resumeStep k s = exec i { s with waiting := s.waiting.eraseIdx k } := by
  simp [resumeStep, hk, lockFree, hb]

theorem resumeStep_of_none {k : Nat} (hk : s.waiting[k]? = none) : resumeStep k s = .next s := by
  simp only [resumeStep, hk]

theorem resumeStep_of_busy {k : Nat} (hb : s.fbBusy = true) : resumeStep k s = .next s := by
  cases hk : s.waiting[k]? with
  | none => exact resumeStep_of_none hk
  | some i => simp [resumeStep, hk, lockFree, hb]

theorem unscheduledStep_of_free {i : Instr} {rest : List Instr} (hw : s.waiting = i :: rest) (hb : s.fbBusy = false) :
    unscheduledStep s = resumeStep 0 s := by
  simp [unscheduledStep, hw, lockFree, hb]

theorem unscheduledStep_of_none_or_busy (h : s.waiting = [] ∨ s.fbBusy = true) : unscheduledStep s = tick s := by
  cases hw : s.waiting with
  | nil => simp only [unscheduledStep, hw]
  | cons i rest =>
    have hb : s.fbBusy = true := by simpa [hw] using h
    simp [unscheduledStep, hw, lockFree, hb]

/-- The tick scheduled where nothing was: taking it off leaves the state as it was. -/
theorem step_of_only_tick (hs : s.schedule = []) : step { s with schedule := [.tick] } = tick s := by
  have hstep : step { s with schedule := [.tick] } = tick { s with schedule := [] } :=
    step_of_schedule_cons (s := { s with schedule := [.tick] }) rfl
  rw [hstep, ← hs]

end Waiting

/-- Settles O60: the branches of the resumed and of the unscheduled step. -/
theorem waitingOperationRunsWhenLockFree : Obligations.WaitingOperationRunsWhenLockFree := by
  intro s
  refine ⟨fun k later hs => ?_, fun hs => ⟨fun i rest hw hb => ?_, fun h => ?_⟩⟩
  · have hstep : step s = resumeStep k { s with schedule := later } := step_of_schedule_cons hs
    rw [hstep]
    refine ⟨fun i hk hb => resumeStep_of_free hk hb, fun h => ?_⟩
    obtain hk | hb := h
    · exact resumeStep_of_none hk
    · exact resumeStep_of_busy hb
  · rw [step_of_schedule_nil hs, unscheduledStep_of_free hw hb, resumeStep_of_free (i := i) (by simp [hw]) hb]
    simp [hw]
  · rw [step_of_schedule_nil hs, unscheduledStep_of_none_or_busy h, step_of_only_tick hs]

/-! ## What a tick can do -/

/-- s1 is s after the swap of the state's strategy, where the engine stands at its swap point and does not stop
(R238, R244). -/
def SwapsTo (s s1 : State) : Prop :=
  s.stopreq = false ∧
    ((s.cfg.strategy = .timeline ∧ s.seq.isCycleStart s.cfg.depth = true ∧ s1 = adopt s) ∨
      (s.cfg.strategy = .direct ∧ s.seq.isRowStart = true ∧ s1 = acquire s))

/-- What a tick can do: nothing, one bus write, one bus write of a running engine after its swap, or a tick of a
hold. -/
inductive TickEffect (s : State) : State → Prop where
  | rests : TickEffect s s
  | drives (L : Lines) (run : Run) (pos : Position) : TickEffect s { drive L s with run := run, seq := pos }
  | swaps (s1 : State) (L : Lines) (pos : Position) : s.run = .running → SwapsTo s s1 →
      TickEffect s { drive L s1 with seq := pos }
  | holds (pos : Position) : TickEffect s { s with seq := pos, trace := .hold :: s.trace }

/-- The cycle start is a row start (R24). -/
theorem isRowStart_of_isCycleStart {depth : Nat} {pos : Position} (h : pos.isCycleStart depth = true) :
    pos.isRowStart = true := by
  cases pos with
  | endCycle => cases h
  | body p n r q k => simpa [Position.isRowStart] using (Bool.and_eq_true_iff.mp h).2

/-- A Timeline position is in no hold phase (R102). -/
theorem not_hold_of_timeline {cfg : Cfg} {pos : Position} (ht : cfg.strategy = .timeline) (hl : pos.legal cfg = true)
    (p n r q h) (hpos : pos = .body p n r q h) : q.val ≠ 198 := by
  subst hpos
  simp only [Position.legal, ht, Bool.and_eq_true, decide_eq_true_eq] at hl
  omega

/-- A bus write sets the lines, whatever they were. -/
theorem drive_ite_lines (L M : Lines) (s : State) (c : Prop) [Decidable c] :
    drive L (if c then { s with lines := M } else s) = drive L s := by
  split <;> rfl

/-- A micro-operation other than HOLD, and then a change of the state. -/
theorem thenDo_exec_drives {i : Instr} {s t : State} {f : State → State} (h : thenDo (exec i s) f = .next t)
    (hm : i.isMicro = true) (hh : ∀ k, i ≠ .hold k) : ∃ L, t = f (drive L s) := by
  obtain ⟨u, hu, rfl⟩ := thenDo_eq_next h
  obtain ⟨-, rfl⟩ := exec_micro_eq_next hm hh hu
  exact ⟨_, rfl⟩

theorem tickTimeline_effect {s t : State} (hr : s.run = .running) (ht : s.cfg.strategy = .timeline)
    (hl : s.seq.legal s.cfg = true) (hstop : s.seq.isRowStart = true → s.stopreq = false)
    (h : tickTimeline s = .next t) : TickEffect s t := by
  have hh := microOp_not_hold s.seq (not_hold_of_timeline ht hl)
  unfold tickTimeline at h
  cases hc : s.seq.isCycleStart s.cfg.depth with
  | true =>
    simp only [hc, if_true, adopt_seq] at h
    obtain ⟨L, rfl⟩ := thenDo_exec_drives h (microOp_micro _) hh
    exact .swaps (adopt s) L _ hr ⟨hstop (isRowStart_of_isCycleStart hc), .inl ⟨ht, hc, rfl⟩⟩
  | false =>
    simp only [hc, Bool.false_eq_true, if_false] at h
    obtain ⟨L, rfl⟩ := thenDo_exec_drives h (microOp_micro _) hh
    exact .drives L s.run _

theorem tickDirect_effect {s t : State} (hr : s.run = .running) (ht : s.cfg.strategy = .direct)
    (hstop : s.seq.isRowStart = true → s.stopreq = false) (h : tickDirect s = .next t) : TickEffect s t := by
  unfold tickDirect at h
  split at h
  · obtain ⟨L, rfl⟩ := thenDo_exec_drives h rfl nofun
    exact .drives L s.run _
  · next p n r q k hseq =>
    split at h
    · obtain ⟨-, p, n, r, q, k, -, rfl⟩ := execHold_eq_next h
      exact .holds _
    · next hq =>
      obtain ⟨L, rfl⟩ := thenDo_exec_drives h (microOp_micro _) (microOp_not_hold _ (by rintro _ _ _ _ _ ⟨⟩; exact hq))
      rw [drive_ite_lines]
      split
      · next hq0 =>
        have hrow : s.seq.isRowStart = true := by
          obtain rfl : q = 0 := Fin.ext hq0
          rw [hseq]; rfl
        exact .swaps (acquire s) L _ hr ⟨hstop hrow, .inr ⟨ht, hrow, rfl⟩⟩
      · exact .drives L s.run _

/-- Every tick that answers a next state has one of these effects, in every state. -/
theorem tick_effect {s t : State} (h : tick s = .next t) : TickEffect s t := by
  unfold tick at h
  split at h
  · cases h; exact .rests
  · next hr =>
    unfold tickRunning at h
    split at h
    · split at h
      · obtain ⟨L, rfl⟩ := thenDo_exec_drives h rfl nofun
        exact .drives L .stopping s.seq
      · next hno =>
        have hstop : s.seq.isRowStart = true → s.stopreq = false := by simpa using hno
        split at h
        · next hl =>
          split at h
          · next ht => exact tickTimeline_effect hr ht hl hstop h
          · next ht => exact tickDirect_effect hr ht hstop h
        · cases h
    · cases h
  · obtain ⟨L, rfl⟩ := thenDo_exec_drives h rfl nofun
    exact .drives L .idle s.seq
  · cases h; exact .rests

/-- The elements a tick may write: the others are those of s (R67, R157, R230). -/
def TickWritesOnly (s t : State) : Prop :=
  t = { s with
    lines := t.lines, seq := t.seq, actFrame := t.actFrame, actGen := t.actGen, run := t.run,
    pendValid := t.pendValid, bus := t.bus, trace := t.trace }

/-- A swap writes ACT and PEND.valid, which it clears or leaves. -/
theorem swapsTo_frame {s s1 : State} (h : SwapsTo s s1) :
    s1 = { s with actFrame := s1.actFrame, actGen := s1.actGen, pendValid := s1.pendValid } ∧
      (s1.pendValid = s.pendValid ∨ s1.pendValid = false) := by
  obtain ⟨-, ⟨-, -, rfl⟩ | ⟨-, -, rfl⟩⟩ := h
  · refine ⟨?_, .inr (adopt_pendValid s)⟩
    unfold adopt; split <;> rfl
  · refine ⟨?_, .inl (acquire_pendValid s)⟩
    unfold acquire; split <;> rfl

theorem tickEffect_frame {s t : State} (h : TickEffect s t) :
    TickWritesOnly s t ∧ (t.pendValid = s.pendValid ∨ t.pendValid = false) ∧
      (t.trace = s.trace ∨ ∃ e, t.trace = e :: s.trace) := by
  cases h with
  | rests => exact ⟨rfl, .inl rfl, .inl rfl⟩
  | drives L run pos => exact ⟨rfl, .inl rfl, .inr ⟨_, rfl⟩⟩
  | swaps s1 L pos _ hsw =>
    obtain ⟨hs1, hp⟩ := swapsTo_frame hsw
    rw [hs1] at hp ⊢
    exact ⟨rfl, hp, .inr ⟨_, rfl⟩⟩
  | holds pos => exact ⟨rfl, .inl rfl, .inr ⟨_, rfl⟩⟩

/-- Settles O53: each effect of a tick is written over the elements it may change. -/
theorem tickFrame : Obligations.TickFrame := by
  intro s t later hs h
  have htick : tick { s with schedule := later } = .next t := (step_of_schedule_cons hs).symm.trans h
  exact tickEffect_frame (tick_effect htick)

/-! ## How the frame generations move -/

/-- ACT is the same in s and t. -/
def SameAct (s t : State) : Prop := t.actFrame = s.actFrame ∧ t.actGen = s.actGen

/-- FB is the same in s and t, or it has the next generation (R68 item 1). -/
def FbStaysOrAdvances (s t : State) : Prop :=
  (t.fbGen = s.fbGen ∧ t.fbFrame = s.fbFrame) ∨ t.fbGen = s.fbGen + 1

theorem generations_refl (s : State) : SameAct s s ∧ FbStaysOrAdvances s s := ⟨⟨rfl, rfl⟩, .inl ⟨rfl, rfl⟩⟩

/-- Both frames are as RESET leaves them (R252, R301). -/
structure Blanked (t : State) : Prop where
  cfgValid : t.cfgValid = false
  fbGen : t.fbGen = 0
  actGen : t.actGen = 0
  fbFrame : t.fbFrame = Frame.blank
  actFrame : t.actFrame = Frame.blank

/-- A running engine that does not stop stands at the swap point of its strategy, with a generation to take there
(R70). -/
def AtSwapPoint (s : State) : Prop :=
  s.run = .running ∧ s.stopreq = false ∧
    ((s.cfg.strategy = .timeline ∧ atCycleStart s ∧ s.pendValid = true) ∨
      (s.cfg.strategy = .direct ∧ s.seq.isRowStart = true ∧ s.fbBusy = false))

/-- ACT of t is the generation in the frame buffer of s, which t keeps. -/
structure ShowsNewest (s t : State) : Prop where
  actFrame : t.actFrame = s.fbFrame
  actGen : t.actGen = s.fbGen
  fbFrame : t.fbFrame = s.fbFrame
  fbGen : t.fbGen = s.fbGen

/-- A host operation leaves ACT and at most installs the next generation, or it is RESET (R67). -/
theorem hostEffect_generations {op : Instr} {s t : State} (h : HostEffect op s t) :
    (SameAct s t ∧ FbStaysOrAdvances s t) ∨ (op = .reset ∧ Blanked t) := by
  cases h with
  | publishes F u hu _ _ => rcases hu with ⟨rfl, -⟩ | rfl <;> exact .inl ⟨⟨rfl, rfl⟩, .inr rfl⟩
  | replaces F u hu _ _ => rcases hu with ⟨rfl, -⟩ | rfl <;> exact .inl ⟨⟨rfl, rfl⟩, .inr rfl⟩
  | resets hop => exact .inr ⟨hop, rfl, rfl, rfl, rfl, rfl⟩
  | _ => exact .inl ⟨⟨rfl, rfl⟩, .inl ⟨rfl, rfl⟩⟩

/-- A waiting operation is no RESET, so it leaves ACT and at most installs the next generation. -/
theorem waiting_exec_generations {s t : State} (h : Inv s) {i : Instr} {l : List Instr} (hi : i ∈ s.waiting)
    (he : exec i { s with waiting := l } = .next t) : SameAct s t ∧ FbStaysOrAdvances s t := by
  have hm := not_micro_of_waitsForLock (h.waiting_ops i hi).1
  obtain hkept | ⟨rfl, -⟩ := hostEffect_generations (exec_host_effect hm he)
  · exact hkept
  · exact absurd hi (reset_not_waiting h)

/-- A swap takes the newest generation where there is one to take, and else leaves the state alone. -/
theorem swapsTo_newest {s s1 : State} (h : Inv s) (hr : s.run = .running) (hsw : SwapsTo s s1) :
    s1 = s ∨ (AtSwapPoint s ∧ ShowsNewest s s1) := by
  obtain ⟨hstop, ⟨ht, hc, rfl⟩ | ⟨ht, hq, rfl⟩⟩ := hsw
  · cases hp : s.pendValid with
    | false => exact .inl (by simp [adopt, hp])
    | true =>
      obtain ⟨-, -, hF, hG⟩ := h.pend_newest hp
      exact .inr ⟨⟨hr, hstop, .inl ⟨ht, hc, hp⟩⟩, by simp [hp, hF], by simp [hp, hG], adopt_fbFrame s, adopt_fbGen s⟩
  · cases hb : s.fbBusy with
    | true => exact .inl (by simp [acquire, hb])
    | false =>
      exact .inr ⟨⟨hr, hstop, .inr ⟨ht, hq, hb⟩⟩, by simp [hb], by simp [hb], acquire_fbFrame s, acquire_fbGen s⟩

/-- A tick leaves both generations, or shows the newest one at a swap point (R68 item 5). -/
theorem tick_generations {s t : State} (h : Inv s) (ht : tick s = .next t) :
    (SameAct s t ∧ FbStaysOrAdvances s t) ∨ (AtSwapPoint s ∧ ShowsNewest s t) := by
  have hsame := generations_refl s
  cases tick_effect ht with
  | rests => exact .inl hsame
  | drives L run pos => exact .inl hsame
  | swaps s1 L pos hr hsw =>
    obtain rfl | ⟨hpoint, hnew⟩ := swapsTo_newest h hr hsw
    · exact .inl hsame
    · exact .inr ⟨hpoint, { hnew with }⟩
  | holds pos => exact .inl hsame

/-- What a step does to the generations: HOST's RESET blanks them, a tick at a swap point shows the newest one, and
every other step leaves ACT and at most installs the next one. -/
theorem step_generations {s t : State} (h : Inv s) (hstep : step s = .next t) :
    (ResetScheduled s ∧ Blanked t) ∨ (SameAct s t ∧ FbStaysOrAdvances s t) ∨
      (((∃ later, s.schedule = .tick :: later) ∨ s.schedule = []) ∧ AtSwapPoint s ∧ ShowsNewest s t) := by
  have hsame := generations_refl s
  obtain ⟨a, later, hs, ha⟩ | ⟨-, -, i, rest, hw, he⟩ | ⟨hs, -, he⟩ := step_eq_next hstep
  · have h' := inv_schedule h later
    obtain ⟨bytes, rest, i, rfl, hdec, hz, hm, he⟩ | ⟨k, -, rfl | ⟨i, hk, -, he⟩⟩ | ⟨rfl, he⟩ | ⟨w, -, rfl⟩ |
      ⟨c, -, ⟨-, he⟩ | ⟨-, rfl⟩⟩ := agentStep_eq_next ha
    · obtain hkept | ⟨rfl, hblank⟩ := hostEffect_generations (exec_host_effect hm he)
      · exact .inr (.inl hkept)
      · exact .inl ⟨⟨bytes, rest, later, hs, hdec, hz⟩, hblank⟩
    · exact .inr (.inl hsame)
    · exact .inr (.inl (waiting_exec_generations (s := { s with schedule := later }) h' (List.mem_of_getElem? hk) he))
    · obtain hkept | ⟨hpoint, hnew⟩ := tick_generations h' he
      · exact .inr (.inl hkept)
      · exact .inr (.inr ⟨.inl ⟨later, hs⟩, hpoint, { hnew with }⟩)
    · exact .inr (.inl hsame)
    · obtain ⟨-, rfl⟩ := faultEntry_eq_next he
      exact .inr (.inl hsame)
    · exact .inr (.inl hsame)
  · exact .inr (.inl (waiting_exec_generations h (by simp [hw]) he))
  · obtain hkept | hswap := tick_generations h he
    · exact .inr (.inl hkept)
    · exact .inr (.inr ⟨.inr hs, hswap⟩)

/-- Settles O51: of the three things a step does to the generations, RESET and the swap alone write ACT. -/
theorem actChangesOnlyAtSwapPoints : Obligations.ActChangesOnlyAtSwapPoints := by
  intro s t h hstep hact
  obtain ⟨hreset, hblank⟩ | ⟨⟨hF, hG⟩, -⟩ | ⟨hsched, ⟨hr, hstop, hpoint⟩, hnew⟩ := step_generations h hstep
  · exact .inl ⟨hreset, hblank.cfgValid, hblank.actGen, hblank.actFrame⟩
  · simp [hF, hG] at hact
  · refine .inr ⟨hsched, hr, hstop, hnew.actFrame, hnew.actGen, ?_⟩
    obtain ⟨ht, hready⟩ | ⟨ht, hready⟩ := hpoint
    · simpa only [ht] using hready
    · simpa only [ht] using hready

/-- Settles O52: a swap shows the generation of the frame buffer, which ACT never passes. -/
theorem generationsNeverDecrease : Obligations.GenerationsNeverDecrease := by
  intro s t h hstep
  have hle := h.act_not_newer.1
  obtain ⟨hreset, hblank⟩ | ⟨⟨-, hact⟩, hfb⟩ | ⟨-, -, hnew⟩ := step_generations h hstep
  · exact .inl ⟨hreset, hblank.cfgValid, hblank.fbGen, hblank.actGen, hblank.fbFrame, hblank.actFrame⟩
  · have hgen : s.fbGen ≤ t.fbGen := by
      obtain ⟨heq, -⟩ | heq := hfb <;> omega
    exact .inr ⟨by omega, by omega, hfb⟩
  · have hact := hnew.actGen
    have hfb := hnew.fbGen
    exact .inr ⟨by omega, by omega, .inl ⟨hfb, hnew.fbFrame⟩⟩

/-! ## How far a Timeline position is from the end of the cycle -/

/-- The ranges of a Timeline body position (R102). -/
theorem legal_timeline_body {cfg : Cfg} (ht : cfg.strategy = .timeline) {p n r q h} :
    (Position.body p n r q h).legal cfg = true ↔ p.val < cfg.depth ∧ n.val < 2 ^ p.val ∧ q.val ≤ 197 := by
  simp only [Position.legal, ht, Bool.and_eq_true, decide_eq_true_eq]
  exact Iff.rfl

/-- A body position stands before End in the Timeline (R96). -/
theorem idx_body_lt {cfg : Cfg} (ht : cfg.strategy = .timeline) {p n r q h}
    (hl : (Position.body p n r q h).legal cfg = true) :
    (Position.body p n r q h).idx cfg.depth < bodyLen cfg.depth := by
  obtain ⟨hp, hn, hq⟩ := (legal_timeline_body ht).mp hl
  have hpow : 2 ^ (p.val + 1) ≤ 2 ^ cfg.depth := Nat.pow_le_pow_right (by omega) hp
  have hone : 1 ≤ 2 ^ p.val := Nat.one_le_two_pow
  rw [Nat.pow_succ] at hpow
  simp only [Position.idx, bodyLen, Config.scanLen, Config.rowLen, Nat.pow_succ]
  omega

theorem idx_le_bodyLen {cfg : Cfg} (ht : cfg.strategy = .timeline) {pos : Position} (hl : pos.legal cfg = true) :
    pos.idx cfg.depth ≤ bodyLen cfg.depth := by
  cases pos with
  | endCycle => exact Nat.le_refl _
  | body p n r q h => exact Nat.le_of_lt (idx_body_lt ht hl)

/-- Next takes a body position to the next address (R239, R96). -/
theorem idx_nextTimeline {cfg : Cfg} (ht : cfg.strategy = .timeline) {p n r q h}
    (hl : (Position.body p n r q h).legal cfg = true) :
    (nextTimeline cfg.depth (.body p n r q h)).idx cfg.depth = (Position.body p n r q h).idx cfg.depth + 1 := by
  obtain ⟨hp, hn, hq⟩ := (legal_timeline_body ht).mp hl
  have hpow : 2 ^ (p.val + 1) ≤ 2 ^ cfg.depth := Nat.pow_le_pow_right (by omega) hp
  rw [Nat.pow_succ] at hpow
  by_cases hq' : q.val < 197
  · rw [nextTimeline, if_pos hq']
    simp only [Position.idx, fin_add_one_val q (by omega)]
    omega
  rw [nextTimeline, if_neg hq']
  by_cases hr : r.val < 31
  · rw [if_pos hr]
    simp only [Position.idx, Config.rowLen, fin_add_one_val r (by omega), Fin.val_zero]
    omega
  rw [if_neg hr]
  by_cases hn' : n.val + 1 < repeats p
  · have h128 : repeats p ≤ 2 ^ 7 := Nat.pow_le_pow_right (by omega) (by omega)
    rw [if_pos hn']
    simp only [Position.idx, Config.scanLen, Config.rowLen, fin_add_one_val n (by omega), Fin.val_zero]
    omega
  rw [if_neg hn']
  rw [repeats] at hn'
  by_cases hp' : 0 < p.val
  · have hprev : (p - 1).val + 1 = p.val := by rw [fin_sub_one_val p hp']; omega
    rw [if_pos hp']
    simp only [Position.idx, hprev, Config.scanLen, Config.rowLen, Fin.val_zero, Nat.pow_succ]
    omega
  · obtain rfl : p = 0 := Fin.ext (by rw [Fin.val_zero]; omega)
    rw [Fin.val_zero] at hn hpow
    rw [if_neg hp']
    simp only [Position.idx, bodyLen, Config.scanLen, Config.rowLen, Fin.val_zero]
    omega

/-- Address 0 is the cycle start's alone (R96, R24). -/
theorem idx_pos_of_not_cycleStart {cfg : Cfg} (ht : cfg.strategy = .timeline) (hD : 5 ≤ cfg.depth) {pos : Position}
    (hl : pos.legal cfg = true) (hc : pos.isCycleStart cfg.depth = false) : 0 < pos.idx cfg.depth := by
  cases pos with
  | endCycle =>
    have hpow : 2 ^ 5 ≤ 2 ^ cfg.depth := Nat.pow_le_pow_right (by omega) hD
    simp only [Position.idx, bodyLen, Config.scanLen, Config.rowLen]
    omega
  | body p n r q h =>
    obtain ⟨hp, -, -⟩ := (legal_timeline_body ht).mp hl
    by_contra hzero
    simp only [Position.idx, Config.scanLen, Config.rowLen] at hzero
    obtain rfl : n = 0 := Fin.ext (by rw [Fin.val_zero]; omega)
    obtain rfl : r = 0 := Fin.ext (by rw [Fin.val_zero]; omega)
    obtain rfl : q = 0 := Fin.ext (by rw [Fin.val_zero]; omega)
    have hlow : p.val + 1 ≠ cfg.depth := by simpa [Position.isCycleStart] using hc
    have hpow : 2 ^ (p.val + 1) < 2 ^ cfg.depth := Nat.pow_lt_pow_right (by omega) (by omega)
    omega

/-! ## A pending generation is adopted -/

/-- A running Timeline engine that has a generation pending and no stop to take. -/
structure AwaitsSwap (s : State) : Prop where
  inv : Inv s
  strategy : s.cfg.strategy = .timeline
  run : s.run = .running
  stopreq : s.stopreq = false
  pendValid : s.pendValid = true

/-- t shows the generation that is pending in s. -/
def Adopted (s t : State) : Prop := t.actGen = s.pendGen ∧ t.actFrame = s.pendFrame ∧ t.pendValid = false

/-- t waits for the swap of the generation pending in s, in the same configuration. -/
structure StillAwaits (s t : State) : Prop extends AwaitsSwap t where
  cfg : t.cfg = s.cfg
  pendGen : t.pendGen = s.pendGen
  pendFrame : t.pendFrame = s.pendFrame

section AwaitsSwap

variable {s : State} {later : List AgentStep}

theorem configured_of_awaitsSwap (h : AwaitsSwap s) : Configured s :=
  h.inv.configured (h.inv.active_configured (by simp [h.run]))

theorem legal_of_awaitsSwap (h : AwaitsSwap s) : s.seq.legal s.cfg = true := (h.inv.running_position h.run).1

/-- The scheduled tick is the Timeline's: the swap at the cycle start, then the word of the position (R235, R236). -/
theorem step_eq_of_awaitsSwap (h : AwaitsSwap s) (hs : s.schedule = .tick :: later) :
    let s' := { s with schedule := later }
    let s1 := if s.seq.isCycleStart s.cfg.depth then adopt s' else s'
    step s = .next { drive (lineAt s.light s.cfg s1.actFrame s.seq) s1 with
      seq := nextTimeline s.cfg.depth s.seq } := by
  have hc := configured_of_awaitsSwap h
  have hl := legal_of_awaitsSwap h
  have htick : step s = tick { s with schedule := later } := step_of_schedule_cons hs
  have htimeline : step s = tickTimeline { s with schedule := later } := by
    simp [htick, tick, tickRunning, h.run, hc.1, h.stopreq, hl, h.strategy]
  exact htimeline.trans (tickTimeline_eq (s := { s with schedule := later }) hc h.strategy hl)

/-- At the cycle start the tick adopts the pending generation (R238). -/
theorem tick_adopts (h : AwaitsSwap s) (hs : s.schedule = .tick :: later) (hc : atCycleStart s) :
    ∃ t, step s = .next t ∧ Adopted s t := by
  have hc' : s.seq.isCycleStart s.cfg.depth = true := hc
  refine ⟨_, step_eq_of_awaitsSwap h hs, ?_⟩
  simp [Adopted, hc', h.pendValid]

/-- Elsewhere the tick advances, and the generation stays pending (R239, R70). -/
theorem tick_awaits (h : AwaitsSwap s) (hs : s.schedule = .tick :: later)
    (hc : s.seq.isCycleStart s.cfg.depth = false) :
    ∃ u, step s = .next u ∧ StillAwaits s u ∧ u.seq = nextTimeline s.cfg.depth s.seq ∧ u.schedule = later := by
  have hstep := step_eq_of_awaitsSwap h hs
  have hinv := invariantKeptByStep _ _ h.inv hstep
  simp only [hc, Bool.false_eq_true, if_false] at hstep hinv
  exact ⟨_, hstep, ⟨⟨hinv, h.strategy, h.run, h.stopreq, h.pendValid⟩, rfl, rfl, rfl⟩, rfl, rfl⟩

/-- Inside the cycle's body the tick moves one address on, and not to the cycle start (R239). -/
theorem tick_awaits_in_body (h : AwaitsSwap s) (hs : s.schedule = .tick :: later)
    (hc : s.seq.isCycleStart s.cfg.depth = false) (hne : s.seq ≠ .endCycle) :
    ∃ u, step s = .next u ∧ StillAwaits s u ∧ u.schedule = later ∧ u.seq.isCycleStart u.cfg.depth = false ∧
      u.seq.idx u.cfg.depth = s.seq.idx s.cfg.depth + 1 := by
  obtain ⟨u, hstep, hu, hnext, hs'⟩ := tick_awaits h hs hc
  have hl := legal_of_awaitsSwap h
  refine ⟨u, hstep, hu, hs', ?_⟩
  rw [hnext, hu.cfg]
  cases hseq : s.seq with
  | endCycle => exact absurd hseq hne
  | body p n r q k =>
    rw [hseq] at hl
    exact ⟨(lineBefore_next s.light s.cfg s.actFrame p n r q k hl h.strategy).1, idx_nextTimeline h.strategy hl⟩

end AwaitsSwap

theorem run_succ {M : Host.Core} {s t : M.State} (h : M.step s = .next t) (k : Nat) :
    M.run (k + 1) s = M.run k t := by
  simp only [Host.Core.run, h]

/-- The last tick of the wait: at the cycle start the pending generation is adopted. -/
theorem adopts_at_cycleStart {s : State} {later : List AgentStep} (h : AwaitsSwap s) (hs : s.schedule = .tick :: later)
    (hc : atCycleStart s) : ∃ t, Host.Core.run core 1 s = .next t ∧ Adopted s t := by
  obtain ⟨t, hstep, hadopted⟩ := tick_adopts h hs hc
  exact ⟨t, run_succ hstep 0, hadopted⟩

/-- A wait goes on behind a tick that leaves the generation pending. -/
theorem adopts_later {s u : State} (hstep : step s = .next u) (hu : StillAwaits s u) {k : Nat}
    (h : ∃ t, Host.Core.run core k u = .next t ∧ Adopted u t) :
    ∃ t, Host.Core.run core (k + 1) s = .next t ∧ Adopted s t := by
  obtain ⟨t, hrun, hgen, hframe, hpend⟩ := h
  exact ⟨t, (run_succ hstep k).trans hrun, hgen.trans hu.pendGen, hframe.trans hu.pendFrame, hpend⟩

/-- END's tick leads to the cycle start, and the tick there adopts. -/
theorem adopts_at_endCycle {s : State} {later : List AgentStep} (h : AwaitsSwap s) (hseq : s.seq = .endCycle)
    (hs : s.schedule = .tick :: .tick :: later) : ∃ t, Host.Core.run core 2 s = .next t ∧ Adopted s t := by
  obtain ⟨-, ⟨-, -, hD, hD8, -⟩, -⟩ := configured_of_awaitsSwap h
  obtain ⟨u, hstep, hu, hseq', hs'⟩ := tick_awaits h hs (by rw [hseq]; rfl)
  have hstart : atCycleStart u := by
    rw [atCycleStart, hseq', hu.cfg, hseq]
    exact (isCycleStart_cycleStart s.cfg hD hD8).1
  exact adopts_later hstep hu (adopts_at_cycleStart hu.toAwaitsSwap hs' hstart)

/-- From a position n addresses before End, the rest of the cycle's body, END and the cycle start adopt the pending
generation. -/
theorem adopts_after_rest_of_cycle {s : State} {later : List AgentStep} (n : Nat) (h : AwaitsSwap s)
    (hc : s.seq.isCycleStart s.cfg.depth = false) (hidx : s.seq.idx s.cfg.depth + n = bodyLen s.cfg.depth)
    (hs : s.schedule = ticks (n + 2) ++ later) : ∃ t, Host.Core.run core (n + 2) s = .next t ∧ Adopted s t := by
  induction n generalizing s with
  | zero =>
    cases hseq : s.seq with
    | endCycle => exact adopts_at_endCycle h hseq hs
    | body p k r q j =>
      have hl := legal_of_awaitsSwap h
      rw [hseq] at hl hidx
      exact absurd hidx (Nat.ne_of_lt (idx_body_lt h.strategy hl))
  | succ n ih =>
    have hne : s.seq ≠ .endCycle := by
      intro hseq
      rw [hseq, Position.idx] at hidx
      omega
    obtain ⟨u, hstep, hu, hs', hc', hidx'⟩ := tick_awaits_in_body h hs hc hne
    exact adopts_later hstep hu (ih hu.toAwaitsSwap hc' (by rw [hidx', hu.cfg, ← hidx]; omega) hs')

/-- The first ticks of a longer run of them. -/
theorem ticks_split {k m : Nat} (h : k ≤ m) (later : List AgentStep) :
    ticks m ++ later = ticks k ++ (ticks (m - k) ++ later) := by
  rw [← List.append_assoc, ticks, ticks, ticks, ← List.replicate_add, Nat.add_sub_cancel' h]

/-- Settles O58: the cycle start's tick adopts; any other position has a positive address, so that the rest of the cycle
and the cycle start's tick are no more than TL_LEN(D) ticks. -/
theorem pendingAdoptedWithinOneCycle : Obligations.PendingAdoptedWithinOneCycle := by
  intro s later hinv ht hr hstop hpend hs
  have h : AwaitsSwap s := ⟨hinv, ht, hr, hstop, hpend⟩
  have hlen : bodyLen s.cfg.depth = 6336 * (2 ^ s.cfg.depth - 1) := rfl
  rw [← hlen] at hs ⊢
  cases hc : s.seq.isCycleStart s.cfg.depth with
  | true =>
    obtain ⟨t, hrun, hadopted⟩ := adopts_at_cycleStart h hs hc
    exact ⟨1, t, by omega, by omega, hrun, hadopted⟩
  | false =>
    obtain ⟨-, ⟨-, -, hD, -⟩, -⟩ := configured_of_awaitsSwap h
    have hl := legal_of_awaitsSwap h
    have hpos := idx_pos_of_not_cycleStart ht hD hl hc
    have hle := idx_le_bodyLen ht hl
    have hbound : bodyLen s.cfg.depth - s.seq.idx s.cfg.depth + 2 ≤ bodyLen s.cfg.depth + 1 := by omega
    rw [ticks_split hbound] at hs
    obtain ⟨t, hrun, hadopted⟩ := adopts_after_rest_of_cycle _ h hc (Nat.add_sub_cancel' hle) hs
    exact ⟨_, t, by omega, hbound, hrun, hadopted⟩

end Sys2Proof.Proofs

/-! PROOFS. The family of 30_encoding.md: the byte form of an operation and its decoder (R99, R100, R102; log entry 1),
Pack and Unpack (R94), the numbering of the positions of a cycle (R96), and what End selects (R97). -/

namespace Sys2Proof.Proofs

open Sys2Proof Sys2Proof.Machine

/-! ## The bytes of a natural number -/

/-- Fuel that covers the number does not change its groups. -/
theorem natGroups_eq_of_le {n f g : Nat} (hf : n ≤ f) (hg : n ≤ g) : natGroups f n = natGroups g n := by
  induction f generalizing n g with
  | zero =>
    obtain rfl : n = 0 := by omega
    cases g <;> rfl
  | succ f ih =>
    cases g with
    | zero =>
      obtain rfl : n = 0 := by omega
      rfl
    | succ g => simp only [natGroups, ih (n := n / 128) (g := g) (by omega) (by omega)]

theorem encodeNat_of_lt {n : Nat} (h : n < 128) : encodeNat n = [BitVec.ofNat 8 n] := by
  unfold encodeNat
  cases n with
  | zero => rfl
  | succ n => rw [natGroups, if_pos h]

theorem encodeNat_of_ge {n : Nat} (h : 128 ≤ n) :
    encodeNat n = BitVec.ofNat 8 (128 + n % 128) :: encodeNat (n / 128) := by
  unfold encodeNat
  cases n with
  | zero => omega
  | succ n =>
    rw [natGroups, if_neg (by omega), natGroups_eq_of_le (g := (n + 1) / 128) (by omega) (Nat.le_refl _)]

theorem takeNat_of_lt {b : Byte} {bs : List Byte} (h : b.toNat < 128) : takeNat (b :: bs) = .ok (b.toNat, bs) := by
  rw [takeNat, if_pos h]

theorem takeNat_of_ge {b : Byte} {bs : List Byte} (h : 128 ≤ b.toNat) :
    takeNat (b :: bs) = readThen (takeNat bs) fun n rest =>
      if n = 0 then .error .superfluousGroup else .ok (b.toNat % 128 + 128 * n, rest) := by
  rw [takeNat, if_neg (by omega)]
  cases takeNat bs <;> rfl

theorem takeNat_encodeNat (n : Nat) (rest : List Byte) : takeNat (encodeNat n ++ rest) = .ok (n, rest) := by
  induction n using Nat.strongRecOn with
  | ind n ih =>
    rcases Nat.lt_or_ge n 128 with h | h
    · have hb : (BitVec.ofNat 8 n).toNat = n := by rw [BitVec.toNat_ofNat]; omega
      rw [encodeNat_of_lt h, List.singleton_append, takeNat_of_lt (by omega), hb]
    · have hb : (BitVec.ofNat 8 (128 + n % 128)).toNat = 128 + n % 128 := by rw [BitVec.toNat_ofNat]; omega
      have hn : (128 + n % 128) % 128 + 128 * (n / 128) = n := by omega
      rw [encodeNat_of_ge h, List.cons_append, takeNat_of_ge (by omega), ih (n / 128) (by omega), readThen,
        if_neg (by omega), hb, hn]

/-- A superfluous last group is rejected, so a number that is read has one byte form. -/
theorem eq_of_takeNat {bs rest : List Byte} {n : Nat} (h : takeNat bs = .ok (n, rest)) : bs = encodeNat n ++ rest := by
  induction bs generalizing n rest with
  | nil => cases h
  | cons b bs ih =>
    have hb := b.isLt
    rcases Nat.lt_or_ge b.toNat 128 with hlt | hge
    · rw [takeNat_of_lt hlt] at h
      cases h
      rw [encodeNat_of_lt hlt, BitVec.ofNat_toNat, BitVec.setWidth_eq, List.singleton_append]
    · rw [takeNat_of_ge hge] at h
      obtain ⟨m, bs', hm, h⟩ := readThen_eq_ok h
      split at h
      · cases h
      · cases h
        have hgroup : BitVec.ofNat 8 (128 + (b.toNat % 128 + 128 * m) % 128) = b := by
          apply BitVec.eq_of_toNat_eq
          rw [BitVec.toNat_ofNat]
          omega
        have hrest : (b.toNat % 128 + 128 * m) / 128 = m := by omega
        rw [encodeNat_of_ge (n := b.toNat % 128 + 128 * m) (by omega), hgroup, hrest, ih hm, List.cons_append]

/-! ## What each operand's reader accepts: its byte form, and what follows is left over -/

theorem readThen_eq_ok_iff {α β : Type} {d : Decoded α} {f : α → List Byte → Decoded β} {r : β × List Byte} :
    readThen d f = .ok r ↔ ∃ a bs, d = .ok (a, bs) ∧ f a bs = .ok r :=
  ⟨readThen_eq_ok, fun ⟨_, _, hd, hf⟩ => by rw [hd, readThen, hf]⟩

section Operands

variable {bs rest : List Byte}

theorem takeNat_eq_ok {n : Nat} : takeNat bs = .ok (n, rest) ↔ bs = encodeNat n ++ rest :=
  ⟨eq_of_takeNat, fun h => by rw [h, takeNat_encodeNat]⟩

theorem takeByte_eq_ok {b : Byte} : takeByte bs = .ok (b, rest) ↔ bs = b :: rest := by
  cases bs <;> simp [takeByte]

theorem takePixel_eq_ok {p : Pixel} : takePixel bs = .ok (p, rest) ↔ bs = encodePixel p ++ rest := by
  cases p
  rcases bs with _ | ⟨r, _ | ⟨g, _ | ⟨b, bs⟩⟩⟩ <;> simp [takePixel, encodePixel, and_assoc]

theorem takePixels_eq_ok {n : Nat} {ps : List Pixel} :
    takePixels n bs = .ok (ps, rest) ↔ ps.length = n ∧ bs = ps.flatMap encodePixel ++ rest := by
  induction n generalizing bs ps with
  | zero => cases ps <;> simp [takePixels, eq_comm]
  | succ n ih => cases ps <;> simp [takePixels, readThen_eq_ok_iff, takePixel_eq_ok, ih, and_comm]

theorem takeGrid_eq_ok {g : Grid} : takeGrid bs = .ok (g, rest) ↔ g.wf = true ∧ bs = encodeGrid g ++ rest := by
  cases g
  simp [takeGrid, encodeGrid, Grid.wf, readThen_eq_ok_iff, takeNat_eq_ok, takePixels_eq_ok, and_comm]

theorem takePins_eq_ok {p : Pins} : takePins bs = .ok (p, rest) ↔ bs = encodePins p ++ rest := by
  cases p
  simp [takePins, encodePins, readThen_eq_ok_iff, takeNat_eq_ok]

theorem takeStrategy_eq_ok {t : Strategy} : takeStrategy bs = .ok (t, rest) ↔ bs = encodeStrategy t :: rest := by
  cases bs with
  | nil => simp [takeStrategy, takeByte, readThen]
  | cons x bs =>
    simp only [takeStrategy, takeByte, readThen]
    cases t <;> split_ifs <;> simp_all [encodeStrategy]

theorem takeChannel_eq_ok {c : Channel} : takeChannel bs = .ok (c, rest) ↔ bs = encodeChannel c :: rest := by
  cases bs with
  | nil => simp [takeChannel, takeByte, readThen]
  | cons x bs =>
    simp only [takeChannel, takeByte, readThen]
    cases c <;> split_ifs <;> simp_all [encodeChannel]

theorem takeChanMap_eq_ok {m : ChanMap} : takeChanMap bs = .ok (m, rest) ↔ bs = encodeChanMap m ++ rest := by
  cases m
  simp [takeChanMap, encodeChanMap, readThen_eq_ok_iff, takeChannel_eq_ok]

/-- The range check of a column and of a row (R102): one byte holds every number below n. -/
theorem byteBelow_eq_ok {n : Nat} (hn : n ≤ 256) {x : Byte} {c : Fin n} {e : DecodeError} :
    (if h : x.toNat < n then .ok (⟨x.toNat, h⟩, bs) else .error e : Decoded (Fin n)) = .ok (c, rest) ↔
      x = BitVec.ofNat 8 c.val ∧ bs = rest := by
  have hx : x = BitVec.ofNat 8 c.val ↔ x.toNat = c.val := by
    rw [← BitVec.toNat_inj, BitVec.toNat_ofNat, Nat.mod_eq_of_lt (by omega)]
  split
  · simp [hx, Fin.ext_iff]
  · simp [hx]
    omega

theorem takeColumn_eq_ok {c : Fin 64} : takeColumn bs = .ok (c, rest) ↔ bs = BitVec.ofNat 8 c.val :: rest := by
  simp [takeColumn, readThen_eq_ok_iff, takeByte_eq_ok, byteBelow_eq_ok]

theorem takeRow_eq_ok {r : Fin 32} : takeRow bs = .ok (r, rest) ↔ bs = BitVec.ofNat 8 r.val :: rest := by
  simp [takeRow, readThen_eq_ok_iff, takeByte_eq_ok, byteBelow_eq_ok]

theorem takeConfigure_eq_ok {i : Instr} :
    takeConfigure bs = .ok (i, rest) ↔
      ∃ pins width depth strategy chanMap dwellUnit, i = .configure pins width depth strategy chanMap dwellUnit ∧
        bs = i.operandBytes ++ rest := by
  simp only [takeConfigure, readThen_eq_ok_iff, takePins_eq_ok, takeNat_eq_ok, takeStrategy_eq_ok, takeChanMap_eq_ok]
  constructor
  · rintro ⟨pins, _, rfl, width, _, rfl, depth, _, rfl, strategy, _, rfl, chanMap, _, rfl, dwellUnit, _, rfl, h⟩
    cases h
    exact ⟨pins, width, depth, strategy, chanMap, dwellUnit, rfl, by simp [Instr.operandBytes]⟩
  · rintro ⟨pins, width, depth, strategy, chanMap, dwellUnit, rfl, hbs⟩
    simpa [Instr.operandBytes] using hbs

end Operands

/-! ## The decoder and the encoder -/

theorem decodeBody_configure {pins : Pins} {width depth : Nat} {strategy : Strategy} {chanMap : ChanMap}
    {dwellUnit : Nat} (bs : List Byte) :
    decodeBody (Instr.configure pins width depth strategy chanMap dwellUnit).code bs = takeConfigure bs := rfl

theorem decodeBody_operandBytes {i : Instr} (hwf : i.wf = true) (rest : List Byte) :
    decodeBody i.code (i.operandBytes ++ rest) = .ok (i, rest) := by
  cases i with
  | configure pins width depth strategy chanMap dwellUnit =>
    rw [decodeBody_configure]
    exact takeConfigure_eq_ok.mpr ⟨pins, width, depth, strategy, chanMap, dwellUnit, rfl, rfl⟩
  | fbReplace g | fbIngest g | fbWriteCommit g =>
    exact readThen_eq_ok_iff.mpr ⟨g, rest, takeGrid_eq_ok.mpr ⟨hwf, rfl⟩, rfl⟩
  | data c => exact readThen_eq_ok_iff.mpr ⟨c, rest, takeColumn_eq_ok.mpr rfl, rfl⟩
  | adr r => exact readThen_eq_ok_iff.mpr ⟨r, rest, takeRow_eq_ok.mpr rfl, rfl⟩
  | hold h => exact readThen_eq_ok_iff.mpr ⟨h, rest, takeNat_eq_ok.mpr rfl, rfl⟩
  | _ => rfl

theorem code_operandBytes_of_decodeBody {code : Byte} {bs rest : List Byte} {i : Instr}
    (h : decodeBody code bs = .ok (i, rest)) : code = i.code ∧ bs = i.operandBytes ++ rest := by
  unfold decodeBody at h
  split at h <;> rename_i hcode
  case h_1 =>
    obtain ⟨pins, width, depth, strategy, chanMap, dwellUnit, rfl, hbs⟩ := takeConfigure_eq_ok.mp h
    exact ⟨BitVec.eq_of_toNat_eq hcode, hbs⟩
  case h_2 | h_3 | h_5 => -- FB_REPLACE, FB_INGEST, FB_WRITE_COMMIT: a grid
    obtain ⟨g, _, hg, h⟩ := readThen_eq_ok h
    cases h
    exact ⟨BitVec.eq_of_toNat_eq hcode, (takeGrid_eq_ok.mp hg).2⟩
  case h_11 | h_12 => -- the two lookups: a channel value
    obtain ⟨v, _, hv, h⟩ := readThen_eq_ok h
    cases h
    exact ⟨BitVec.eq_of_toNat_eq hcode, takeByte_eq_ok.mp hv⟩
  case h_14 => -- DATA: a column
    obtain ⟨c, _, hc, h⟩ := readThen_eq_ok h
    cases h
    exact ⟨BitVec.eq_of_toNat_eq hcode, takeColumn_eq_ok.mp hc⟩
  case h_20 => -- ADR: a row
    obtain ⟨r, _, hr, h⟩ := readThen_eq_ok h
    cases h
    exact ⟨BitVec.eq_of_toNat_eq hcode, takeRow_eq_ok.mp hr⟩
  case h_24 => -- HOLD: a number
    obtain ⟨k, _, hk, h⟩ := readThen_eq_ok h
    cases h
    exact ⟨BitVec.eq_of_toNat_eq hcode, takeNat_eq_ok.mp hk⟩
  case h_25 => cases h -- no such code
  all_goals -- an operation without operands
    cases h
    exact ⟨BitVec.eq_of_toNat_eq hcode, rfl⟩

/-- Settles O32: the code byte selects the reader of the operands, and that reader takes their byte form. -/
theorem decodeInvertsEncode : Obligations.DecodeInvertsEncode :=
  fun _ rest hwf => decodeBody_operandBytes hwf rest

/-- Settles O33: the code byte read is the operation's, and each reader accepts its operand's byte form only. -/
theorem decodedBytesAreTheEncoding : Obligations.DecodedBytesAreTheEncoding := by
  intro bytes rest i h
  refine ⟨decode_wf h, ?_⟩
  cases bytes with
  | nil => cases h
  | cons code bs =>
    obtain ⟨rfl, rfl⟩ := code_operandBytes_of_decodeBody h
    rfl

/-- Settles O34: such a code is in no branch of the decoder but the last. -/
theorem unknownCodesRejected : Obligations.UnknownCodesRejected := by
  intro code rest
  by_cases hcode : (0x01 ≤ code.toNat ∧ code.toNat ≤ 0x0A) ∨ (0x10 ≤ code.toNat ∧ code.toNat ≤ 0x1B) ∨
      code.toNat = 0x20 ∨ code.toNat = 0x21
  · exact .inl hcode
  · right
    rw [decode]
    unfold decodeBody
    split
    case h_25 => rfl
    all_goals omega

theorem decodeTableWord_of_encode {nbits w : Nat} {i : Instr} {rest : List Byte} (hwf : i.wf = true)
    (hw : tableBytes nbits w = encode i ++ rest) : decodeTableWord nbits w = some i := by
  rw [decodeTableWord, hw, decodeInvertsEncode i rest hwf]

/-- Settles O35: each table word is the operation's encoding, its operands zeros, and the zeros left over. -/
theorem tableWordsDecode : Obligations.TableWordsDecode :=
  ⟨decodeTableWord_of_encode (rest := List.replicate 19 0) rfl rfl,
   decodeTableWord_of_encode (rest := List.replicate 21 0) rfl rfl,
   decodeTableWord_of_encode (rest := List.replicate 21 0) rfl rfl,
   decodeTableWord_of_encode (rest := List.replicate 20 0) rfl rfl,
   decodeTableWord_of_encode (rest := List.replicate 21 0) rfl rfl,
   decodeTableWord_of_encode (rest := List.replicate 20 0) rfl rfl⟩

/-! ## Pack and Unpack -/

/-- A bit of Pack(L) at a driven position, as the bus write onto an empty register shows it. -/
theorem pack_testBit_pos {pins : Pins} {width : Nat} (hp : LegalPins pins width) (L : Lines) (i : Fin 14) :
    (pack pins L).testBit (pins.pos i) = roleLine L i := by
  have hwrite : maskedWrite 0 (pack pins L) (deriveMasks pins).driven = pack pins L := by
    rw [maskedWrite, pack_and_driven]
    simp [withoutBits]
  obtain ⟨hshown, -⟩ := busShows_drive pins width hp 0 L
  rw [← hshown i, hwrite]

theorem withoutBits_pack (pins : Pins) (L : Lines) : withoutBits (pack pins L) (deriveMasks pins).driven = 0 := by
  rw [withoutBits, pack_and_driven, Nat.xor_self]

theorem ofWord_word (L : Lines) : Lines.ofWord L.word = L := by
  have hbit (k : Nat) (hk : k < 14) : L.word.getLsbD k = roleLine L ⟨k, hk⟩ := word_bit L ⟨k, hk⟩
  obtain ⟨rgb, addr, clk, lat, oe⟩ := L
  simp only [Lines.ofWord, Lines.mk.injEq]
  refine ⟨BitVec.eq_of_getLsbD_eq fun k hk => ?_, BitVec.eq_of_getLsbD_eq fun k hk => ?_, hbit 11 (by omega),
    hbit 12 (by omega), hbit 13 (by omega)⟩
  all_goals
    rw [BitVec.getLsbD_extractLsb', hbit _ (by omega)]
    interval_cases k <;> rfl

/-- A bit of an or of line words over a list. -/
theorem getLsbD_foldl_or {α : Type} (l : List α) (f : α → LineWord) (v : LineWord) (k : Nat) :
    (l.foldl (fun v i => v ||| f i) v).getLsbD k = (v.getLsbD k || l.any fun i => (f i).getLsbD k) := by
  induction l generalizing v with
  | nil => simp
  | cons a l ih => simp [ih, Bool.or_assoc]

section LineBit

variable {k : Nat} (hk : k < 14)
include hk

/-- The line word with one line at bit i. -/
theorem getLsbD_ofBool_shiftLeft (b : Bool) (i : Nat) :
    ((BitVec.ofBool b).setWidth 14 <<< i).getLsbD k = (decide (k = i) && b) := by
  cases b with
  | false => simp
  | true =>
    rw [BitVec.getLsbD_shiftLeft, BitVec.getLsbD_setWidth, BitVec.getLsbD_ofBool, Bool.eq_iff_iff]
    simp only [Bool.and_eq_true, Bool.not_eq_true', decide_eq_true_eq, decide_eq_false_iff_not, and_true]
    omega

/-- Of the 14 roles, k is one only. -/
theorem any_role (f : Fin 14 → Bool) : ((List.finRange 14).any fun i => decide (k = i.val) && f i) = f ⟨k, hk⟩ := by
  rw [Bool.eq_iff_iff, List.any_eq_true]
  constructor
  · rintro ⟨i, -, hi⟩
    obtain ⟨rfl, hf⟩ : k = i.val ∧ f i = true := by simpa using hi
    exact hf
  · intro hf
    exact ⟨⟨k, hk⟩, List.mem_finRange _, by simpa using hf⟩

end LineBit

/-- Unpack reads the driven positions alone (R94). -/
theorem unpack_of_bits {pins : Pins} {w : BusWord} {L : Lines}
    (h : ∀ i : Fin 14, w.testBit (pins.pos i) = roleLine L i) : unpack pins w = L := by
  refine Eq.trans (congrArg Lines.ofWord (BitVec.eq_of_getLsbD_eq fun k hk => ?_)) (ofWord_word L)
  rw [getLsbD_foldl_or]
  simp only [getLsbD_ofBool_shiftLeft hk, any_role hk, h, BitVec.ofNat_eq_ofNat, BitVec.getLsbD_zero, Bool.false_or]
  exact (word_bit L ⟨k, hk⟩).symm

/-- The assignment that gives role i the position i. -/
def identityPins : Pins := ⟨0, 1, 2, 3, 4, 5, 6, 7, 8, 9, 10, 11, 12, 13⟩

theorem identityPins_pos : ∀ i : Fin 14, identityPins.pos i = i.val := by decide

theorem legal_identityPins : LegalPins identityPins 14 := by
  simp only [LegalPins, identityPins_pos]
  exact ⟨Fin.isLt, fun i j hij => Fin.val_ne_of_ne hij⟩

/-- Below bit 14 both words carry the lines, above it nothing. -/
theorem pack_identityPins (L : Lines) : pack identityPins L = L.word.toNat := by
  apply Nat.eq_of_testBit_eq
  intro k
  rw [BitVec.testBit_toNat]
  rcases Nat.lt_or_ge k 14 with hk | hk
  · have hbit := pack_testBit_pos legal_identityPins L ⟨k, hk⟩
    rw [identityPins_pos] at hbit
    exact hbit.trans (word_bit L ⟨k, hk⟩).symm
  · rw [BitVec.getLsbD_of_ge _ _ hk]
    exact Nat.testBit_lt_two_pow (pack_lt legal_identityPins hk L)

/-- Settles O5: the bits of Pack(L) at the 14 positions are the lines, which Unpack reads back, and every word of a
Timeline is some Pack(L). -/
theorem unpackInvertsPack : Obligations.UnpackInvertsPack := by
  refine ⟨fun pins width L hp => ⟨pack_lt hp (Nat.le_refl _) L, withoutBits_pack pins L, pack_testBit_pos hp L,
    unpack_of_bits (pack_testBit_pos hp L)⟩, pack_identityPins, fun light cfg F w hw => ?_⟩
  obtain ⟨L, -, rfl⟩ := List.mem_map.mp hw
  exact withoutBits_pack cfg.pins L

/-! ## The numbering of the positions -/

theorem idx_cycleStart {depth : Nat} (hD : 5 ≤ depth) (hD8 : depth ≤ 8) : (cycleStart depth).idx depth = 0 := by
  have hp : (Fin.ofNat 8 (depth - 1)).val + 1 = depth := by
    rw [Fin.val_ofNat]
    omega
  simp only [cycleStart, Position.idx, hp, Nat.sub_self, Fin.val_zero, Nat.mul_zero]

/-- The scans of plane p come before the first one of every lower plane (R96). -/
theorem scan_lt_of_plane_lt {depth p p' n : Nat} (hp : p' < p) (hd : p < depth) (hn : n < 2 ^ p) :
    2 ^ depth - 2 ^ (p + 1) + n < 2 ^ depth - 2 ^ (p' + 1) := by
  have hlower : 2 ^ (p' + 1) ≤ 2 ^ p := Nat.pow_le_pow_right (by omega) hp
  have hall : 2 ^ (p + 1) ≤ 2 ^ depth := Nat.pow_le_pow_right (by omega) hd
  rw [Nat.pow_succ] at hall ⊢
  omega

section Timeline

variable {cfg : Cfg} (ht : cfg.strategy = .timeline)
include ht

theorem legal_nextTimeline {p n r q h} (hl : (Position.body p n r q h).legal cfg = true) :
    (nextTimeline cfg.depth (.body p n r q h)).legal cfg = true :=
  (lineBefore_next State.reset.light cfg Frame.blank p n r q h hl ht).2.2

/-- Different planes stand in different scans; in one plane the address has n, r and q as its digits. -/
theorem idx_injective {p p' : Fin 8} {n n' : Fin 128} {r r' : Fin 32} {q q' : Fin 199} {h h' : Nat}
    (hl : (Position.body p n r q h).legal cfg = true) (hl' : (Position.body p' n' r' q' h').legal cfg = true)
    (he : (Position.body p n r q h).idx cfg.depth = (Position.body p' n' r' q' h').idx cfg.depth) :
    p = p' ∧ n = n' ∧ r = r' ∧ q = q' := by
  obtain ⟨hp, hn, hq⟩ := (legal_timeline_body ht).mp hl
  obtain ⟨hp', hn', hq'⟩ := (legal_timeline_body ht).mp hl'
  simp only [Position.idx, Config.scanLen, Config.rowLen] at he
  obtain hlt | heq | hgt := Nat.lt_trichotomy p.val p'.val
  · have := scan_lt_of_plane_lt hlt hp' hn'
    omega
  · obtain rfl : p = p' := Fin.ext heq
    have hnn : n.val = n'.val := by omega
    have hrr : r.val = r'.val := by omega
    exact ⟨rfl, Fin.ext hnn, Fin.ext hrr, Fin.ext (by omega)⟩
  · have := scan_lt_of_plane_lt hgt hp hn
    omega

/-- Next, from the cycle start on, passes every address up to End's. -/
theorem exists_position_of_idx (hD : 5 ≤ cfg.depth) (hD8 : cfg.depth ≤ 8) {i : Nat} (hi : i ≤ bodyLen cfg.depth) :
    ∃ pos : Position, pos.legal cfg = true ∧ pos.idx cfg.depth = i := by
  induction i with
  | zero => exact ⟨cycleStart cfg.depth, (isCycleStart_cycleStart cfg hD hD8).2.1, idx_cycleStart hD hD8⟩
  | succ i ih =>
    obtain ⟨pos, hl, hidx⟩ := ih (by omega)
    cases pos with
    | endCycle =>
      rw [Position.idx] at hidx
      omega
    | body p n r q h => exact ⟨_, legal_nextTimeline ht hl, (idx_nextTimeline ht hl).trans (by rw [hidx])⟩

end Timeline

/-- Settles O26: a body position lies below End's address and Next takes it one up; End's Next is the cycle start. -/
theorem idxNumbersTheCycle : Obligations.IdxNumbersTheCycle := by
  intro cfg hD hD8 ht
  refine ⟨fun p p' n n' r r' q q' h h' => idx_injective ht, fun pos hl hne => ?_,
    fun i => exists_position_of_idx ht hD hD8, (isCycleStart_cycleStart cfg hD hD8).2.1, idx_cycleStart hD hD8⟩
  cases pos with
  | endCycle => exact absurd rfl hne
  | body p n r q h => exact ⟨idx_body_lt ht hl, legal_nextTimeline ht hl, idx_nextTimeline ht hl⟩

/-! ## What needs a row is refused at End -/

theorem atPosition_of_valid {s : State} (hv : s.cfgValid = true) (f : Position → Answer) :
    atPosition s f = f s.seq := by
  simp [atPosition, hv]

/-- Settles O22: DATA and HOLD read the position, and End has no row. -/
theorem rowOperationsAtEndRefused : Obligations.RowOperationsAtEndRefused := by
  intro s c h hv hseq
  have hdata : execData c s = .refused .noRowAtEnd := by rw [execData, atPosition_of_valid hv, hseq]
  have hhold : execHold h s = .refused .noRowAtEnd := by rw [execHold, atPosition_of_valid hv, hseq]
  exact ⟨hdata, hhold⟩

end Sys2Proof.Proofs

/-! PROOFS. The family of 40_color_correction.md: the two lookup functions (R121, R123), the tables the model leaves free
(R33; log entry 8), and the top D bits of a corrected channel value (R126). -/

namespace Sys2Proof.Proofs

open Sys2Proof Sys2Proof.Machine

/-! ## The lookup functions -/

theorem exec_lightnessCorrect (v : Byte) (s : State) :
    exec (.lightnessCorrect v) s = .next (respond (.value (s.light.read v)) s) := rfl

theorem exec_gammaCorrect (v : Byte) (s : State) :
    exec (.gammaCorrect v) s = .next (respond (.value (s.gamma.read v)) s) := rfl

/-- Settles O1: each lookup answers with the entry, and an answer writes `result` only. -/
theorem colorCorrectionReturnsTableEntry : Obligations.ColorCorrectionReturnsTableEntry :=
  fun v s => ⟨exec_lightnessCorrect v s, exec_gammaCorrect v s⟩

/-! ## Every admissible table is the table of a seed -/

/-- A table is known by its 256 reads. -/
theorem table_eq_of_read {t u : Table} (h : ∀ v : Byte, t.read v = u.read v) : t = u := by
  obtain ⟨xs, hxs⟩ := t
  obtain ⟨ys, hys⟩ := u
  obtain rfl : xs = ys := List.ext_getElem (hxs.trans hys.symm) fun i hi _ => by
    have hmod : (BitVec.ofNat 8 i).toNat = i := by rw [BitVec.toNat_ofNat]; omega
    simpa only [Table.read, hmod] using h (BitVec.ofNat 8 i)
  rfl

/-- The seed that holds a table's own entries. -/
def seedOf (t : Table) (n : Nat) : Byte := t.read (BitVec.ofNat 8 n)

@[simp] theorem seedOf_toNat (t : Table) (v : Byte) : seedOf t v.toNat = t.read v := by
  rw [seedOf, BitVec.ofNat_toNat, BitVec.setWidth_eq]

theorem seedOf_mono {t : Table} (ht : Admissible t) {m n : Nat} (hmn : m ≤ n) (hn : n ≤ 255) :
    (seedOf t m).toNat ≤ (seedOf t n).toNat := by
  obtain ⟨-, -, hmono⟩ := ht
  exact hmono _ _ (by simp only [BitVec.toNat_ofNat]; omega)

/-- A monotone seed is its own running maximum. -/
theorem runningMax_seedOf {t : Table} (ht : Admissible t) {n : Nat} (hn : n ≤ 255) :
    Config.runningMax (seedOf t) n = (seedOf t n).toNat := by
  induction n with
  | zero =>
    obtain ⟨hzero, -, -⟩ := ht
    have hseed : seedOf t 0 = 0 := hzero
    rw [hseed]
    rfl
  | succ n ih =>
    rw [Config.runningMax, ih (by omega)]
    exact Nat.max_eq_right (seedOf_mono ht (Nat.le_succ n) hn)

theorem tableEntry_seedOf {t : Table} (ht : Admissible t) (v : Byte) :
    Config.tableEntry (seedOf t) v.toNat = t.read v := by
  have ⟨hzero, hmax, _⟩ := ht
  have hv := v.isLt
  apply BitVec.eq_of_toNat_eq
  rw [tableEntry_toNat]
  split_ifs with h0 h255
  · obtain rfl : v = 0 := BitVec.eq_of_toNat_eq h0
    rw [hzero]
    rfl
  · obtain rfl : v = 255 := BitVec.eq_of_toNat_eq (show v.toNat = 255 by omega)
    rw [hmax]
    rfl
  · rw [runningMax_seedOf ht (by omega), seedOf_toNat]

/-- Settles O2: a seed's table is its monotone closure, and an admissible table is its own. -/
theorem seededTablesAreTheAdmissibleOnes : Obligations.SeededTablesAreTheAdmissibleOnes :=
  ⟨admissible_tableEntry, fun t ht => ⟨seedOf t, table_eq_of_read fun v => by
    rw [read_tableOfFn, tableEntry_seedOf ht]⟩⟩

/-! ## The slices of a channel value weigh its top bits -/

/-- The n lowest bits of x, bit p weighted 2^p. -/
theorem sum_testBit_mul_two_pow (x n : Nat) :
    ((List.finRange n).map fun p => (x.testBit p.val).toNat * 2 ^ p.val).sum = x % 2 ^ n := by
  induction n with
  | zero => simp [Nat.mod_one]
  | succ n ih =>
    rw [List.finRange_succ_last, List.map_append, List.map_map, List.sum_append, Nat.mod_pow_succ, ← ih,
      ← Nat.toNat_testBit, Nat.mul_comm (2 ^ n)]
    simp [Function.comp_def]

/-- R173: slice p of a channel value is bit p of its top D bits. -/
theorem slice_eq_testBit (depth : Nat) (u : Byte) (p : Fin 8) :
    slice depth u p = (u.toNat / 2 ^ (8 - depth)).testBit p.val := by
  rw [slice, planeOffset, BitVec.getLsbD, Nat.testBit_div_two_pow, Nat.add_comm]

theorem topBits_lt {depth : Nat} (hD8 : depth ≤ 8) (u : Byte) : u.toNat / 2 ^ (8 - depth) < 2 ^ depth := by
  rw [Nat.div_lt_iff_lt_mul (Nat.two_pow_pos _), ← Nat.pow_add, Nat.add_sub_cancel' hD8]
  exact u.isLt

/-- R126: the D slices make the top D bits, which are 0 from bit D on. -/
theorem slicedValue_eq_topBits {depth : Nat} (hD8 : depth ≤ 8) (u : Byte) :
    slicedValue depth u = u.toNat / 2 ^ (8 - depth) := by
  have hterm (p : Fin 8) : (if p.val < depth then (slice depth u p).toNat * 2 ^ p.val else 0) =
      ((u.toNat / 2 ^ (8 - depth)).testBit p.val).toNat * 2 ^ p.val := by
    rw [slice_eq_testBit]
    split
    · rfl
    · have hhigh : (u.toNat / 2 ^ (8 - depth)).testBit p.val = false :=
        Nat.testBit_lt_two_pow (Nat.lt_of_lt_of_le (topBits_lt hD8 u) (Nat.pow_le_pow_right (by omega) (by omega)))
      rw [hhigh, Bool.toNat_false, Nat.zero_mul]
  calc slicedValue depth u
      = ((List.finRange 8).map fun p => ((u.toNat / 2 ^ (8 - depth)).testBit p.val).toNat * 2 ^ p.val).sum := by
        simp only [slicedValue, hterm]
    _ = u.toNat / 2 ^ (8 - depth) % 2 ^ 8 := sum_testBit_mul_two_pow _ 8
    _ = u.toNat / 2 ^ (8 - depth) :=
        Nat.mod_eq_of_lt (Nat.lt_of_le_of_lt (Nat.div_le_self _ _) u.isLt)

theorem slicedValue_mono {depth : Nat} (hD8 : depth ≤ 8) {u u' : Byte} (h : u.toNat ≤ u'.toNat) :
    slicedValue depth u ≤ slicedValue depth u' := by
  rw [slicedValue_eq_topBits hD8, slicedValue_eq_topBits hD8]
  exact Nat.div_le_div_right h

theorem slicedValue_zero {depth : Nat} (hD8 : depth ≤ 8) : slicedValue depth 0 = 0 := by
  rw [slicedValue_eq_topBits hD8]
  exact Nat.zero_div _

theorem slicedValue_255 {depth : Nat} (hD8 : depth ≤ 8) : slicedValue depth 255 = 2 ^ depth - 1 := by
  rw [slicedValue_eq_topBits hD8, show (255 : Byte).toNat = 2 ^ 8 - 1 from rfl]
  interval_cases depth <;> rfl

/-- Settles O3: the value the slices make is the top D bits, which follow the entry and its two ends. -/
theorem topBitsMonotone : Obligations.TopBitsMonotone :=
  ⟨admissible_tableEntry _, admissible_tableEntry _, fun f depth ⟨hzero, hmax, hmono⟩ _ hD8 =>
    ⟨fun v => slicedValue_eq_topBits hD8 (f.read v),
      fun a b hab => slicedValue_mono hD8 (hmono a b hab),
      by rw [hzero, slicedValue_zero hD8],
      by rw [hmax, slicedValue_255 hD8]⟩⟩

end Sys2Proof.Proofs

/-! PROOFS. The family of 41_pin_assignment.md: the derived masks (R135, R136), the checks of CONFIGURE in their order
(R131 to R133), and what an accepted CONFIGURE writes (R131). -/

namespace Sys2Proof.Proofs

open Sys2Proof Sys2Proof.Machine

/-! ## The masks -/

/-- The roles of the five groups (R135): RGB, address, CLK, LAT, OE. -/
def roleGroups : List (List (Fin 14)) := [[0, 1, 2, 3, 4, 5], [6, 7, 8, 9, 10], [11], [12], [13]]

/-- The groups share the 14 roles out among them. -/
theorem roleGroups_flatten : roleGroups.flatten = List.finRange 14 := by decide

theorem roleGroups_disjoint : roleGroups.Pairwise List.Disjoint := by
  have hnodup : roleGroups.flatten.Nodup := roleGroups_flatten ▸ List.nodup_finRange 14
  exact (List.nodup_flatten.mp hnodup).2

theorem roleMask_testBit_iff {pins : Pins} {l : List (Fin 14)} {k : Nat} :
    (roleMask pins l).testBit k = true ↔ ∃ i ∈ l, k = pins.pos i := by
  simp only [roleMask_bit, List.any_eq_true, decide_eq_true_eq]

theorem roleMask_singleton (pins : Pins) (i : Fin 14) : roleMask pins [i] = bitMask (pins.pos i) :=
  Nat.zero_or _

theorem driven_eq_roleMask (pins : Pins) : (deriveMasks pins).driven = roleMask pins (List.finRange 14) :=
  Nat.eq_of_testBit_eq fun k => by rw [driven_bit, roleMask_bit]

theorem groupMasks_eq_map_roleMask (pins : Pins) :
    [(deriveMasks pins).rgb, (deriveMasks pins).addr, (deriveMasks pins).clk, (deriveMasks pins).lat,
      (deriveMasks pins).oe] = roleGroups.map (roleMask pins) := by
  simp only [roleGroups, List.map_cons, List.map_nil, roleMask_singleton]
  rfl

section LegalPins

variable {pins : Pins} {width : Nat} (hp : LegalPins pins width)
include hp

theorem pos_injective : Function.Injective pins.pos := fun i j h => by
  by_contra hne
  exact hp.2 i j hne h

/-- The set bits below W are the positions of the roles, each once. -/
theorem countP_testBit_roleMask {l : List (Fin 14)} (hl : l.Nodup) :
    ((List.range width).countP fun k => (roleMask pins l).testBit k) = l.length := by
  have hperm : ((List.range width).filter fun k => (roleMask pins l).testBit k).Perm (l.map pins.pos) := by
    rw [List.perm_ext_iff_of_nodup (List.nodup_range.filter _) (hl.map (pos_injective hp))]
    intro k
    simp only [List.mem_filter, List.mem_range, roleMask_testBit_iff, List.mem_map]
    constructor
    · rintro ⟨-, i, hi, rfl⟩
      exact ⟨i, hi, rfl⟩
    · rintro ⟨i, hi, rfl⟩
      exact ⟨hp.1 i, i, hi, rfl⟩
  rw [List.countP_eq_length_filter, hperm.length_eq, List.length_map]

theorem roleMask_and_eq_zero {l l' : List (Fin 14)} (hd : l.Disjoint l') : roleMask pins l &&& roleMask pins l' = 0 := by
  refine Nat.eq_of_testBit_eq fun k => ?_
  rw [Nat.testBit_and, Nat.zero_testBit, Bool.and_eq_false_imp, Bool.eq_false_iff]
  intro hk hk'
  obtain ⟨i, hi, rfl⟩ := roleMask_testBit_iff.mp hk
  obtain ⟨j, hj, hij⟩ := roleMask_testBit_iff.mp hk'
  exact hd hi (pos_injective hp hij ▸ hj)

end LegalPins

/-- Settles O4: each mask is the mask of a list of roles, and a legal assignment gives each role a bit of its own. -/
theorem masksPartitionDrivenBits : Obligations.MasksPartitionDrivenBits := by
  intro pins width hp m bits
  have hcount (i : Fin 14) : bits (bitMask (pins.pos i)) = 1 :=
    roleMask_singleton pins i ▸ countP_testBit_roleMask hp (List.nodup_singleton i)
  refine ⟨countP_testBit_roleMask hp (by decide), countP_testBit_roleMask hp (by decide), hcount 11, hcount 12,
    hcount 13, ?driven, ?disjoint, rfl, ?below⟩
  case driven =>
    simp only [bits, m, driven_eq_roleMask]
    exact countP_testBit_roleMask hp (List.nodup_finRange 14)
  case disjoint =>
    exact groupMasks_eq_map_roleMask pins ▸ roleGroups_disjoint.map _ fun l l' => roleMask_and_eq_zero hp
  case below =>
    intro k hk
    rw [driven_eq_roleMask] at hk
    obtain ⟨i, -, rfl⟩ := roleMask_testBit_iff.mp hk
    exact hp.1 i

/-! ## The checks of CONFIGURE -/

/-- In a list sorted by r, `find?` answers the r-least of what it looks for. -/
theorem find?_eq_some_of_pairwise {α : Type} {r : α → α → Prop} {l : List α} (hl : l.Pairwise r) {p : α → Bool} {x : α}
    (hx : x ∈ l) (hpx : p x = true) (hleast : ∀ y ∈ l, r y x → p y = false) : l.find? p = some x := by
  obtain ⟨before, after, rfl⟩ := List.append_of_mem hx
  obtain ⟨-, -, hsorted⟩ := List.pairwise_append.mp hl
  refine List.find?_eq_some_iff_append.mpr ⟨hpx, before, after, rfl, fun y hy => ?_⟩
  rw [hleast y (List.mem_append_left _ hy) (hsorted y hy x List.mem_cons_self)]
  rfl

theorem mem_rolePairs {i j : Fin 14} : (i, j) ∈ rolePairs ↔ i < j := by
  simp [rolePairs]

/-- R133: the pairs stand in lexicographic order. -/
theorem rolePairs_pairwise_lex : rolePairs.Pairwise (Prod.Lex (· < ·) (· < ·)) := by
  refine List.pairwise_flatMap.mpr ⟨fun i _ => ?same, (List.pairwise_lt_finRange 14).imp fun hij => ?later⟩
  case same => exact ((List.pairwise_lt_finRange 14).filter _).map _ fun j l hjl => Prod.Lex.right i hjl
  case later =>
    intro x hx y hy
    obtain ⟨l, -, rfl⟩ := List.mem_map.mp hx
    obtain ⟨l', -, rfl⟩ := List.mem_map.mp hy
    exact Prod.Lex.left l l' hij

theorem firstOutOfRange_eq_some {pins : Pins} {width : Nat} {i : Fin 14} (hi : width ≤ pins.pos i)
    (hlower : ∀ j : Fin 14, j < i → pins.pos j < width) : firstOutOfRange pins width = some i :=
  find?_eq_some_of_pairwise (List.pairwise_lt_finRange 14) (List.mem_finRange i) (decide_eq_true hi)
    fun j _ hj => decide_eq_false (Nat.not_le_of_lt (hlower j hj))

theorem firstOutOfRange_eq_none {pins : Pins} {width : Nat} (hrange : ∀ i : Fin 14, pins.pos i < width) :
    firstOutOfRange pins width = none :=
  List.find?_eq_none.mpr fun i _ => by simpa using hrange i

theorem firstCollision_eq_some {pins : Pins} {i j : Fin 14} (hij : i < j) (heq : pins.pos i = pins.pos j)
    (hearlier : ∀ k l : Fin 14, k < l → (k < i ∨ (k = i ∧ l < j)) → pins.pos k ≠ pins.pos l) :
    firstCollision pins = some (i, j) :=
  find?_eq_some_of_pairwise rolePairs_pairwise_lex (mem_rolePairs.mpr hij) (beq_iff_eq.mpr heq)
    fun (k, l) hkl hlex => beq_eq_false_iff_ne.mpr (hearlier k l (mem_rolePairs.mp hkl) (Prod.lex_def.mp hlex))

theorem firstCollision_eq_none {pins : Pins} (hdistinct : ∀ i j : Fin 14, i ≠ j → pins.pos i ≠ pins.pos j) :
    firstCollision pins = none :=
  List.find?_eq_none.mpr fun (i, j) hij => by simpa using hdistinct i j (mem_rolePairs.mp hij).ne

theorem isPermutation_iff {m : ChanMap} : isPermutation m = true ↔ m.r ≠ m.g ∧ m.g ≠ m.b ∧ m.r ≠ m.b := by
  simp [isPermutation, and_assoc]

section ConfigureError

variable {s : State} {pins : Pins} {width depth : Nat} {chanMap : ChanMap}

theorem configureError_of_configured (hv : s.cfgValid = true) :
    configureError s pins width depth chanMap = some .alreadyConfigured :=
  if_pos hv

variable (hv : s.cfgValid = false)
include hv

theorem configureError_of_width_gt (hw : s.wMax < width) :
    configureError s pins width depth chanMap = some (.widthRange width) := by
  simp [configureError, hv, hw]

variable (hw : width ≤ s.wMax)
include hw

theorem configureError_of_outOfRange {i : Fin 14} (hi : firstOutOfRange pins width = some i) :
    configureError s pins width depth chanMap = some (.outOfRange i.val (pins.pos i)) := by
  simp [configureError, hv, Nat.not_lt_of_le hw, hi]

theorem configureError_of_collision {i j : Fin 14} (hrange : ∀ i : Fin 14, pins.pos i < width)
    (hij : firstCollision pins = some (i, j)) :
    configureError s pins width depth chanMap = some (.collision i.val j.val) := by
  simp [configureError, hv, Nat.not_lt_of_le hw, firstOutOfRange_eq_none hrange, hij]

variable (hp : LegalPins pins width)
include hp

/-- Past the checks of the pins, those of the depth and of the channel map are left. -/
theorem configureError_of_legalPins :
    configureError s pins width depth chanMap =
      if depth < Config.depthMin ∨ Config.depthMax < depth then some (.depthRange depth)
      else if isPermutation chanMap then none else some .badChanMap := by
  obtain ⟨hrange, hdistinct⟩ := hp
  simp [configureError, hv, Nat.not_lt_of_le hw, firstOutOfRange_eq_none hrange, firstCollision_eq_none hdistinct]

theorem configureError_of_depth (hD : depth < 5 ∨ 8 < depth) :
    configureError s pins width depth chanMap = some (.depthRange depth) :=
  (configureError_of_legalPins hv hw hp).trans (if_pos hD)

variable (hD : 5 ≤ depth) (hD8 : depth ≤ 8)
include hD hD8

theorem configureError_of_legal_depth :
    configureError s pins width depth chanMap = if isPermutation chanMap then none else some .badChanMap :=
  (configureError_of_legalPins hv hw hp).trans (if_neg (not_or.mpr ⟨Nat.not_lt_of_le hD, Nat.not_lt_of_le hD8⟩))

theorem configureError_of_chanMap (hm : chanMap.r = chanMap.g ∨ chanMap.g = chanMap.b ∨ chanMap.r = chanMap.b) :
    configureError s pins width depth chanMap = some .badChanMap := by
  have hnot : ¬ isPermutation chanMap = true := by
    rw [isPermutation_iff]
    rintro ⟨hrg, hgb, hrb⟩
    obtain h | h | h := hm
    · exact hrg h
    · exact hgb h
    · exact hrb h
  rw [configureError_of_legal_depth hv hw hp hD hD8, if_neg hnot]

end ConfigureError

/-- The converse of `configureError_eq_none`. -/
theorem configureError_of_legal {s : State} {cfg : Cfg} (hv : s.cfgValid = false) (hc : LegalCfg s.wMax cfg) :
    configureError s cfg.pins cfg.width cfg.depth cfg.chanMap = none := by
  obtain ⟨hw, hp, hD, hD8, hm⟩ := hc
  rw [configureError_of_legal_depth hv hw hp hD hD8, if_pos (isPermutation_iff.mpr hm)]

/-! ## The two outcomes of CONFIGURE -/

section Configure

variable {s : State} {pins : Pins} {width depth : Nat} {strategy : Strategy} {chanMap : ChanMap} {dwellUnit : Nat}

theorem exec_configure_of_error {e : BlockError} (h : configureError s pins width depth chanMap = some e) :
    exec (.configure pins width depth strategy chanMap dwellUnit) s = .next (rejectedWith e.record s) := by
  simp only [exec, execConfigure, h]
  rfl

theorem exec_configure_of_none (h : configureError s pins width depth chanMap = none) :
    exec (.configure pins width depth strategy chanMap dwellUnit) s =
      .next (respond .ok (acceptCfg ⟨width, pins, depth, strategy, chanMap, dwellUnit⟩ s)) := by
  simp only [exec, execConfigure, h]

end Configure

/-- Settles O6: no check fails, and the bus write is a masked write of G0 under the masks of the new assignment. -/
theorem configureAcceptsLegalOperands : Obligations.ConfigureAcceptsLegalOperands := by
  intro s pins width depth strategy chanMap dwellUnit hv hc
  have ⟨_, hp, _⟩ := hc
  exact ⟨_, busShows_drive pins width hp s.bus Lines.g0, exec_configure_of_none (configureError_of_legal hv hc)⟩

/-- Settles O7: each clause is one way out of the checks in their order. -/
theorem configureReportsFirstFailure : Obligations.ConfigureReportsFirstFailure := by
  intro s pins width depth strategy chanMap dwellUnit run inRange distinct
  refine ⟨fun hv => ?configured, fun hv hw => ?wide, fun hv hw i hi hlower => ?outOfRange,
    fun hv hw hrange i j hij heq hearlier => ?collision, fun hv hw hrange hdistinct hD => ?depth,
    fun hv hw hrange hdistinct hD hD8 hm => ?chanMap⟩
  case configured => exact exec_configure_of_error (configureError_of_configured hv)
  case wide => exact exec_configure_of_error (configureError_of_width_gt hv hw)
  case outOfRange =>
    exact exec_configure_of_error (configureError_of_outOfRange hv hw (firstOutOfRange_eq_some hi hlower))
  case collision =>
    exact exec_configure_of_error (configureError_of_collision hv hw hrange (firstCollision_eq_some hij heq hearlier))
  case depth => exact exec_configure_of_error (configureError_of_depth hv hw ⟨hrange, hdistinct⟩ hD)
  case chanMap => exact exec_configure_of_error (configureError_of_chanMap hv hw ⟨hrange, hdistinct⟩ hD hD8 hm)

end Sys2Proof.Proofs

/-! PROOFS. The family of 42_framebuffer.md: the guards of the frame operations (R151 to R155, R271), the grid operand
(R159, U15), and what replacing the frame writes (R151, R160). -/

namespace Sys2Proof.Proofs

open Sys2Proof Sys2Proof.Machine

/-! ## The grid operand -/

theorem is64_iff {g : Grid} : is64 g = true ↔ g.w = 64 ∧ g.h = 64 := by
  simp [is64, Config.frameSide]

theorem is64_eq_false_iff {g : Grid} : is64 g = false ↔ (g.w, g.h) ≠ (64, 64) := by
  rw [Bool.eq_false_iff, ne_eq, is64_iff, ne_eq, Prod.mk.injEq]

theorem gridFrame_eq_some_iff {g : Grid} {F : Frame} : gridFrame g = some F ↔ g.pixels = F.pixels := by
  constructor
  · intro h
    obtain ⟨_, hF⟩ := Option.dite_none_right_eq_some.mp h
    rw [← Option.some.inj hF]
  · obtain ⟨pixels, hsize⟩ := F
    rintro rfl
    exact dif_pos hsize

/-- U15: a 64×64 grid with another number of pixels carries no frame. -/
theorem gridFrame_of_not_wf {g : Grid} (h64 : is64 g = true) (hwf : g.wf = false) : gridFrame g = none := by
  obtain ⟨hw, hh⟩ := is64_iff.mp h64
  refine dif_neg fun hlen => ?_
  simp [Grid.wf, hw, hh, hlen] at hwf

/-- R61: pixels stand row by row. -/
theorem getElem?_pixels (F : Frame) (x y : Fin 64) : F.pixels[y.val * 64 + x.val]? = some (F.pixel x y) :=
  List.getElem?_eq_getElem _

theorem pixel_correctFrame (t : Table) (F : Frame) (x y : Fin 64) :
    (t.correctFrame F).pixel x y = t.correctPixel (F.pixel x y) :=
  List.getElem_map _

/-! ## Replacing the frame -/

/-- R151, R160: the next generation; in the Timeline strategy it is pending at once. -/
theorem installFrame_of_valid {s : State} (hv : s.cfgValid = true) (F : Frame) :
    installFrame F s =
      match s.cfg.strategy with
      | .timeline => .next { s with
          fbFrame := F, fbGen := s.fbGen + 1, pendFrame := F, pendGen := s.fbGen + 1, pendValid := true, result := .ok }
      | .direct => .next { s with fbFrame := F, fbGen := s.fbGen + 1, result := .ok } := by
  rw [installFrame, publish, if_pos hv]
  cases s.cfg.strategy with
  | timeline => rfl
  | direct => rfl

section ReplaceFrame

variable {g : Grid} (f : Frame → Frame) (s : State)

theorem replaceFrame_of_wf (hw : g.w = 64) (hh : g.h = 64) (hwf : g.wf = true) :
    ∃ F : Frame, (∀ x y : Fin 64, g.pixels[y.val * 64 + x.val]? = some (F.pixel x y)) ∧
      replaceFrame g f s = installFrame (f F) s := by
  have h64 : is64 g = true := is64_iff.mpr ⟨hw, hh⟩
  obtain ⟨F, hF⟩ := gridFrame_of_wf hwf h64
  refine ⟨F, fun x y => ?_, ?_⟩
  · rw [gridFrame_eq_some_iff.mp hF]
    exact getElem?_pixels F x y
  · rw [replaceFrame, if_pos h64, hF]

theorem replaceFrame_of_not_wf (hw : g.w = 64) (hh : g.h = 64) (hwf : g.wf = false) :
    replaceFrame g f s = .refused .malformedGrid := by
  have h64 : is64 g = true := is64_iff.mpr ⟨hw, hh⟩
  rw [replaceFrame, if_pos h64, gridFrame_of_not_wf h64 hwf]

/-- R159: the dimensions are looked at before any pixel. -/
theorem replaceFrame_of_bad_dimensions (hdim : (g.w, g.h) ≠ (64, 64)) :
    replaceFrame g f s = .next (rejectedWith ⟨2, 1, g.w, g.h⟩ s) :=
  if_neg (Bool.eq_false_iff.mp (is64_eq_false_iff.mpr hdim))

end ReplaceFrame

/-! ## The guards -/

section Guards

variable {i : Instr} {s : State} {f : State → Answer}

theorem whenLockFree_of_free (hb : s.fbBusy = false) : whenLockFree i s f = f s := by
  simp [whenLockFree, lockFree, hb]

theorem whenLockFree_of_busy (hb : s.fbBusy = true) : whenLockFree i s f = .next (waitForLock i s) := by
  simp [whenLockFree, lockFree, hb]

theorem whenConfigured_of_valid (hv : s.cfgValid = true) : whenConfigured s f = f s :=
  if_pos hv

theorem whenConfigured_of_invalid (hv : s.cfgValid = false) :
    whenConfigured s f = .next (rejectedWith ⟨1, 7, 0, 0⟩ s) :=
  if_neg (Bool.eq_false_iff.mp hv)

/-- Past both guards an operation does its work. -/
theorem guarded_of_enabled (hb : s.fbBusy = false) (hv : s.cfgValid = true) :
    whenLockFree i s (fun s => whenConfigured s f) = f s :=
  (whenLockFree_of_free hb).trans (whenConfigured_of_valid hv)

/-- The lock is looked at first: an operation with no step is not rejected. -/
theorem guarded_of_unconfigured (hb : s.fbBusy = false) (hv : s.cfgValid = false) :
    whenLockFree i s (fun s => whenConfigured s f) = .next (rejectedWith ⟨1, 7, 0, 0⟩ s) :=
  (whenLockFree_of_free hb).trans (whenConfigured_of_invalid hv)

end Guards

/-! ## The frame operations -/

section FrameOperations

variable {s : State} {g : Grid}

theorem exec_fbReplace : exec (.fbReplace g) s =
    whenLockFree (.fbReplace g) s fun s => whenConfigured s (replaceFrame g fun F => F) := rfl

theorem exec_fbIngest : exec (.fbIngest g) s =
    whenLockFree (.fbIngest g) s fun s => whenConfigured s fun s => replaceFrame g s.gamma.correctFrame s := rfl

theorem exec_fbWriteBegin : exec .fbWriteBegin s =
    whenLockFree .fbWriteBegin s fun s => whenConfigured s fun s => .next (respond .ok (takeLock s)) := rfl

theorem exec_fbSnapshot : exec .fbSnapshot s =
    whenLockFree .fbSnapshot s fun s => .next (respond (.snapshot s.fbFrame s.fbGen) s) := rfl

theorem exec_fbReplace_of_enabled (hb : s.fbBusy = false) (hv : s.cfgValid = true) :
    exec (.fbReplace g) s = replaceFrame g (fun F => F) s :=
  exec_fbReplace.trans (guarded_of_enabled hb hv)

theorem exec_fbIngest_of_enabled (hb : s.fbBusy = false) (hv : s.cfgValid = true) :
    exec (.fbIngest g) s = replaceFrame g s.gamma.correctFrame s :=
  exec_fbIngest.trans (guarded_of_enabled hb hv)

theorem exec_fbWriteCommit_of_busy (hb : s.fbBusy = true) :
    exec (.fbWriteCommit g) s = replaceFrame g (fun F => F) (releaseLock s) :=
  if_pos hb

theorem exec_fbWriteCommit_of_free (hb : s.fbBusy = false) :
    exec (.fbWriteCommit g) s = .refused .commitWithoutBegin :=
  if_neg (Bool.eq_false_iff.mp hb)

end FrameOperations

/-- Settles O8: past its guards FB_REPLACE installs the frame that the grid carries. -/
theorem fbReplaceInstallsWholeFrame : Obligations.FbReplaceInstallsWholeFrame := by
  intro s g hv hb hw hh hwf
  obtain ⟨F, hpixels, hreplace⟩ := replaceFrame_of_wf (fun F => F) s hw hh hwf
  exact ⟨F, hpixels, (exec_fbReplace_of_enabled hb hv).trans (hreplace.trans (installFrame_of_valid hv F))⟩

/-- Settles O9: the frame installed is the corrected one of the frame that the grid carries. -/
theorem fbIngestInstallsGammaCorrectedFrame : Obligations.FbIngestInstallsGammaCorrectedFrame := by
  intro s g hv hb hw hh hwf
  obtain ⟨F, hpixels, hreplace⟩ := replaceFrame_of_wf s.gamma.correctFrame s hw hh hwf
  exact ⟨s.gamma.correctFrame F, fun x y => ⟨F.pixel x y, hpixels x y, pixel_correctFrame s.gamma F x y⟩,
    (exec_fbIngest_of_enabled hb hv).trans (hreplace.trans (installFrame_of_valid hv _))⟩

/-- Settles O10: the replacement runs from the state with the lock released. -/
theorem fbWriteCommitInstallsAndReleases : Obligations.FbWriteCommitInstallsAndReleases := by
  intro s g hv hb hw hh hwf
  have hv' : (releaseLock s).cfgValid = true := hv
  obtain ⟨F, hpixels, hreplace⟩ := replaceFrame_of_wf (fun F => F) (releaseLock s) hw hh hwf
  exact ⟨F, hpixels, (exec_fbWriteCommit_of_busy hb).trans (hreplace.trans (installFrame_of_valid hv' F))⟩

/-- Settles O11: FB_WRITE_BEGIN stands behind both guards, FB_SNAPSHOT behind the lock alone. -/
theorem lockTakenAndSnapshotReturned : Obligations.LockTakenAndSnapshotReturned :=
  fun _ hb => ⟨fun hv => exec_fbWriteBegin.trans (guarded_of_enabled hb hv),
    exec_fbSnapshot.trans (whenLockFree_of_free hb)⟩

/-- Settles O12: the configuration guard stands before the dimension check; FB_WRITE_COMMIT checks the dimensions with
the lock released. -/
theorem frameOperationsRejected : Obligations.FrameOperationsRejected := by
  intro s g
  refine ⟨fun hb hv => ?unconfigured, fun hb hv hdim => ?dimensions, fun hb hdim => ?commit⟩
  case unconfigured =>
    exact ⟨exec_fbReplace.trans (guarded_of_unconfigured hb hv), exec_fbIngest.trans (guarded_of_unconfigured hb hv),
      exec_fbWriteBegin.trans (guarded_of_unconfigured hb hv)⟩
  case dimensions =>
    exact ⟨(exec_fbReplace_of_enabled hb hv).trans (replaceFrame_of_bad_dimensions _ s hdim),
      (exec_fbIngest_of_enabled hb hv).trans (replaceFrame_of_bad_dimensions _ s hdim)⟩
  case commit =>
    exact (exec_fbWriteCommit_of_busy hb).trans (replaceFrame_of_bad_dimensions _ (releaseLock s) hdim)

/-- Settles O13: the four operations behind the lock guard. -/
theorem lockedOperationsWait : Obligations.LockedOperationsWait := by
  intro s i hb hwaits
  cases i with
  | fbReplace g => exact exec_fbReplace.trans (whenLockFree_of_busy hb)
  | fbIngest g => exact exec_fbIngest.trans (whenLockFree_of_busy hb)
  | fbWriteBegin => exact exec_fbWriteBegin.trans (whenLockFree_of_busy hb)
  | fbSnapshot => exact exec_fbSnapshot.trans (whenLockFree_of_busy hb)
  | _ => cases hwaits

/-- Settles O14: the commit looks at the lock before the grid; a 64×64 grid that carries no frame passes the dimension
check. -/
theorem commitWithoutBeginRefused : Obligations.CommitWithoutBeginRefused := by
  intro s g
  refine ⟨exec_fbWriteCommit_of_free, fun hw hh hwf => ⟨fun hb hv => ?enabled, fun hb => ?commit⟩⟩
  case enabled =>
    exact ⟨(exec_fbReplace_of_enabled hb hv).trans (replaceFrame_of_not_wf _ s hw hh hwf),
      (exec_fbIngest_of_enabled hb hv).trans (replaceFrame_of_not_wf _ s hw hh hwf)⟩
  case commit =>
    exact (exec_fbWriteCommit_of_busy hb).trans (replaceFrame_of_not_wf _ (releaseLock s) hw hh hwf)

end Sys2Proof.Proofs

/-! PROOFS. The family of 43_bcm_encoder.md: the program of a cycle (R178), the line states it generates (R180, R181),
and what the Timelines of some frames show (R186 to R189). -/

namespace Sys2Proof.Proofs

open Sys2Proof Sys2Proof.Machine

/-! ## The entries of a BitPlane table -/

/-- A bit of an entry with one line at bit j. -/
theorem getLsbD_entryBit (b : Bool) (j : Nat) {k : Nat} (hk : k < 6) :
    (entryBit b j).getLsbD k = (decide (k = j) && b) := by
  cases b with
  | false => simp [entryBit]
  | true =>
    rw [entryBit, BitVec.getLsbD_shiftLeft, BitVec.getLsbD_setWidth, BitVec.getLsbD_ofBool, Bool.eq_iff_iff]
    simp only [Bool.and_eq_true, Bool.not_eq_true', decide_eq_true_eq, decide_eq_false_iff_not, and_true]
    omega

/-- Settles O24: of the six lines that are put together, bit k is the one at k. -/
theorem bptEntryPacksSixLines : Obligations.BptEntryPacksSixLines := by
  intro light cfg F p r c k
  simp only [bptEntry, BitVec.getLsbD_or, getLsbD_entryBit _ _ k.isLt]
  fin_cases k <;> simp [lineSource]

/-! ## Lists of pieces of one length -/

/-- Piece i stands at the addresses from k × i on. -/
theorem getElem?_flatten_of_length {α : Type} {k : Nat} {l : List (List α)} (hk : ∀ x ∈ l, x.length = k) {i j : Nat}
    {x : List α} (hx : l[i]? = some x) (hj : j < k) : l.flatten[k * i + j]? = x[j]? := by
  induction l generalizing i with
  | nil => simp at hx
  | cons y l ih =>
    have hy : y.length = k := hk y List.mem_cons_self
    cases i with
    | zero =>
      obtain rfl : y = x := by simpa using hx
      rw [List.flatten_cons, Nat.mul_zero, Nat.zero_add, List.getElem?_append_left (by omega)]
    | succ i =>
      rw [List.flatten_cons, List.getElem?_append_right (by rw [hy, Nat.mul_succ]; omega), hy,
        show k * (i + 1) + j - k = k * i + j by rw [Nat.mul_succ]; omega]
      exact ih (fun z hz => hk z (List.mem_cons_of_mem y hz)) hx

section FinPieces

variable {α : Type} {n k : Nat} {f : Fin n → List α} (hk : ∀ i, (f i).length = k)
include hk

theorem getElem?_flatMap_finRange (i : Fin n) {j : Nat} (hj : j < k) :
    ((List.finRange n).flatMap f)[k * i.val + j]? = (f i)[j]? := by
  rw [List.flatMap_def]
  refine getElem?_flatten_of_length (fun x hx => ?_) (by simp) hj
  obtain ⟨i, -, rfl⟩ := List.mem_map.mp hx
  exact hk i

theorem length_flatMap_finRange : ((List.finRange n).flatMap f).length = n * k := by
  simp [List.length_flatMap, hk]

end FinPieces

/-! ## The program of a cycle -/

theorem length_rowSteps (p : Fin 8) (r : Fin 32) : (rowSteps p r).length = 198 := by
  simp [rowSteps, windowSteps, length_flatMap_finRange (f := colSteps p r) (k := 3) fun _ => rfl]

theorem length_scanSteps (p : Fin 8) : (scanSteps p).length = 6336 :=
  length_flatMap_finRange (length_rowSteps p)

theorem length_planeSteps (p : Fin 8) : (planeSteps p).length = 6336 * 2 ^ p.val := by
  simp [planeSteps, repeats, length_scanSteps, Nat.mul_comm]

theorem planesDown_succ {d : Nat} (hd : d < 8) : planesDown (d + 1) = planeSteps ⟨d, hd⟩ ++ planesDown d := by
  rw [planesDown, show Fin.ofNat 8 d = ⟨d, hd⟩ from Fin.ext (Nat.mod_eq_of_lt hd)]

theorem length_planesDown {d : Nat} (hd : d ≤ 8) : (planesDown d).length = bodyLen d := by
  induction d with
  | zero => rfl
  | succ d ih =>
    have hpos : 1 ≤ 2 ^ d := Nat.one_le_two_pow
    rw [planesDown_succ hd, List.length_append, length_planeSteps, ih (by omega)]
    simp only [bodyLen, Config.scanLen, Config.rowLen, Nat.pow_succ]
    omega

theorem length_cycleProgram {depth : Nat} (hD8 : depth ≤ 8) : (cycleProgram depth).length = bodyLen depth + 1 := by
  rw [cycleProgram, List.length_append, length_planesDown hD8, List.length_singleton]

/-- The window of a row follows CLR and the 64 columns. -/
theorem getElem?_rowSteps_window (p : Fin 8) (r : Fin 32) (j : Nat) :
    (rowSteps p r)[193 + j]? = (windowSteps p r)[j]? := by
  have hlen : (ProgramStep.mk p r .clr :: (List.finRange 64).flatMap (colSteps p r)).length = 193 := by
    rw [List.length_cons, length_flatMap_finRange (k := 3) fun _ => rfl]
  rw [rowSteps, List.getElem?_append_right (by omega), hlen, Nat.add_sub_cancel_left]

theorem getElem?_rowSteps_column (p : Fin 8) (r : Fin 32) (c : Fin 64) {j : Nat} (hj : j < 3) :
    (rowSteps p r)[1 + (3 * c.val + j)]? = (colSteps p r c)[j]? := by
  have hlen : ((List.finRange 64).flatMap (colSteps p r)).length = 192 :=
    length_flatMap_finRange (k := 3) fun _ => rfl
  have hc := c.isLt
  rw [rowSteps, Nat.add_comm 1, List.cons_append, List.getElem?_cons_succ, List.getElem?_append_left (by omega)]
  exact getElem?_flatMap_finRange (k := 3) (fun _ => rfl) c hj

/-- R97: phase 1 + 3c + j is step j of column c. -/
theorem phaseDecode_column (p : Fin 8) (r : Fin 32) {q : Fin 199} (h : Nat) {c : Fin 64} {j : Nat} (hj : j < 3)
    (hq : q.val = 1 + (3 * c.val + j)) : (colSteps p r c)[j]? = some ⟨p, r, phaseDecode r q h⟩ := by
  have hc := c.isLt
  have hcol : phaseColumn q = c := Fin.ext (by simp only [phaseColumn, Fin.val_ofNat]; omega)
  have hmod : (q.val - 1) % 3 = j := by omega
  rw [phaseDecode, if_neg (by omega), if_pos (by omega), hmod, hcol]
  interval_cases j <;> rfl

/-- R178 against R97 in one row. -/
theorem getElem?_rowSteps (p : Fin 8) (r : Fin 32) {q : Fin 199} (h : Nat) (hq : q.val ≤ 197) :
    (rowSteps p r)[q.val]? = some ⟨p, r, phaseDecode r q h⟩ := by
  have column {c : Fin 64} {j : Nat} (hj : j < 3) (hqc : q.val = 1 + (3 * c.val + j)) :
      (rowSteps p r)[q.val]? = some ⟨p, r, phaseDecode r q h⟩ := by
    rw [hqc, getElem?_rowSteps_column p r c hj, phaseDecode_column p r h hj hqc]
  rcases q_cases q with rfl | ⟨c, hc⟩ | ⟨c, hc⟩ | ⟨c, hc⟩ | rfl | rfl | rfl | rfl | rfl | rfl
  · rfl
  · exact column (c := c) (j := 0) (by omega) hc
  · exact column (c := c) (j := 1) (by omega) (by omega)
  · exact column (c := c) (j := 2) (by omega) (by omega)
  · exact getElem?_rowSteps_window p r 0
  · exact getElem?_rowSteps_window p r 1
  · exact getElem?_rowSteps_window p r 2
  · exact getElem?_rowSteps_window p r 3
  · exact getElem?_rowSteps_window p r 4
  · exact absurd hq (by decide)

theorem getElem?_planeSteps {p : Fin 8} {n : Nat} (hn : n < 2 ^ p.val) {j : Nat} (hj : j < 6336) :
    (planeSteps p)[6336 * n + j]? = (scanSteps p)[j]? := by
  refine getElem?_flatten_of_length (fun x hx => ?_) (List.getElem?_replicate_of_lt hn) hj
  rw [List.eq_of_mem_replicate hx, length_scanSteps]

/-- Plane p stands after the planes above it (R178, R96). -/
theorem getElem?_planesDown {d : Nat} (hd : d ≤ 8) {p : Fin 8} (hp : p.val < d) {j : Nat} (hj : j < 6336 * 2 ^ p.val) :
    (planesDown d)[6336 * (2 ^ d - 2 ^ (p.val + 1)) + j]? = (planeSteps p)[j]? := by
  induction d with
  | zero => omega
  | succ d ih =>
    rw [planesDown_succ hd]
    obtain rfl | hlt : p.val = d ∨ p.val < d := by omega
    · rw [Nat.sub_self, Nat.mul_zero, Nat.zero_add, List.getElem?_append_left (by rwa [length_planeSteps])]
    · have hpow : 2 ^ (p.val + 1) ≤ 2 ^ d := Nat.pow_le_pow_right (by omega) hlt
      have hdouble : 2 ^ (d + 1) = 2 ^ d * 2 := Nat.pow_succ ..
      rw [← ih (by omega) hlt, List.getElem?_append_right (by simp only [length_planeSteps]; omega)]
      simp only [length_planeSteps]
      congr 1
      omega

/-- The element of the program at a position; the plane and the row of END are not read. -/
def stepAt : Position → ProgramStep
  | .body p _ r q h => ⟨p, r, phaseDecode r q h⟩
  | .endCycle => ⟨0, 31, .endCycle⟩

theorem stepAt_op (pos : Position) : (stepAt pos).op = pos.microOp := by
  cases pos <;> rfl

/-- R178 against R97 and R96. -/
theorem getElem?_cycleProgram {cfg : Cfg} (hD8 : cfg.depth ≤ 8) (ht : cfg.strategy = .timeline) {pos : Position}
    (hl : pos.legal cfg = true) : (cycleProgram cfg.depth)[pos.idx cfg.depth]? = some (stepAt pos) := by
  have hlen := length_planesDown hD8
  cases pos with
  | endCycle =>
    rw [cycleProgram, Position.idx, List.getElem?_append_right (by omega), hlen, Nat.sub_self]
    rfl
  | body p n r q h =>
    obtain ⟨hp, hn, hq⟩ := (legal_timeline_body ht).mp hl
    have hidx := idx_body_lt ht hl
    have hscan : 198 * r.val + q.val < 6336 := by omega
    rw [cycleProgram, List.getElem?_append_left (by omega)]
    calc (planesDown cfg.depth)[(Position.body p n r q h).idx cfg.depth]?
        = (planesDown cfg.depth)[6336 * (2 ^ cfg.depth - 2 ^ (p.val + 1)) +
            (6336 * n.val + (198 * r.val + q.val))]? := by
          simp only [Position.idx, Config.scanLen, Config.rowLen, Nat.add_assoc]
      _ = (planeSteps p)[6336 * n.val + (198 * r.val + q.val)]? := getElem?_planesDown hD8 hp (by omega)
      _ = (scanSteps p)[198 * r.val + q.val]? := getElem?_planeSteps hn hscan
      _ = (rowSteps p r)[q.val]? := getElem?_flatMap_finRange (length_rowSteps p) r (by omega)
      _ = some (stepAt (.body p n r q h)) := getElem?_rowSteps p r h hq

/-- Settles O25: the address of a position has the plane, the scan, the row and the phase as its digits. -/
theorem programAgreesWithPhaseDecode : Obligations.ProgramAgreesWithPhaseDecode := by
  intro cfg _ hD8 ht
  refine ⟨length_cycleProgram hD8, fun p n r q h hl => getElem?_cycleProgram hD8 ht hl, ?_⟩
  rw [getElem?_cycleProgram (pos := .endCycle) hD8 ht rfl]
  rfl

/-! ## The closed form of the line states -/

section LineStates

variable (light : Table) (cfg : Cfg) (F : Frame)

theorem length_lineStates (steps : List ProgramStep) (L : Lines) :
    (lineStates light cfg F steps L).length = steps.length := by
  induction steps generalizing L with
  | nil => rfl
  | cons st rest ih => simp only [lineStates, List.length_cons, ih]

theorem getElem?_lineStates_zero {steps : List ProgramStep} {st : ProgramStep} (hst : steps[0]? = some st) (L : Lines) :
    (lineStates light cfg F steps L)[0]? = some (apply (bptEntry light cfg F st.plane st.row) st.op L) := by
  cases steps with
  | nil => simp at hst
  | cons a rest =>
    obtain rfl : a = st := by simpa using hst
    rfl

/-- R180: each line state comes from the one before it. -/
theorem getElem?_lineStates_succ {steps : List ProgramStep} {L L' : Lines} {i : Nat} {st : ProgramStep}
    (hst : steps[i + 1]? = some st) (hL' : (lineStates light cfg F steps L)[i]? = some L') :
    (lineStates light cfg F steps L)[i + 1]? = some (apply (bptEntry light cfg F st.plane st.row) st.op L') := by
  induction i generalizing steps L with
  | zero =>
    cases steps with
    | nil => simp at hst
    | cons a rest =>
      obtain rfl := Option.some.inj hL'
      exact getElem?_lineStates_zero light cfg F hst _
  | succ i ih =>
    cases steps with
    | nil => simp at hst
    | cons a rest => exact ih hst hL'

/-- What the element at a position makes of a line state; END reads no entry. -/
theorem apply_stepAt (pos : Position) (L : Lines) :
    apply (bptEntry light cfg F (stepAt pos).plane (stepAt pos).row) (stepAt pos).op L =
      apply (ent light cfg F pos) pos.microOp L := by
  cases pos <;> rfl

theorem lineBefore_cycleStart {pos : Position} (hc : pos.isCycleStart cfg.depth = true) :
    lineBefore light cfg F pos = Lines.g0 := by
  cases pos with
  | endCycle => cases hc
  | body p n r q h =>
    simp only [Position.isCycleStart, Bool.and_eq_true, beq_iff_eq] at hc
    obtain ⟨⟨⟨hp, rfl⟩, rfl⟩, rfl⟩ := hc
    have hlast : ¬ p.val + 1 < cfg.depth := by omega
    simp [lineBefore, Position.prev, hlast]

variable {cfg}

section Timeline

variable (ht : cfg.strategy = .timeline)
include ht

/-- Positions of one address are one position, but for the hold counter. -/
theorem lineBefore_eq_of_idx_eq {pos pos' : Position} (hl : pos.legal cfg = true) (hl' : pos'.legal cfg = true)
    (he : pos.idx cfg.depth = pos'.idx cfg.depth) : lineBefore light cfg F pos = lineBefore light cfg F pos' := by
  cases pos with
  | endCycle =>
    cases pos' with
    | endCycle => rfl
    | body p' n' r' q' h' => exact absurd he.symm (Nat.ne_of_lt (idx_body_lt ht hl'))
  | body p n r q h =>
    cases pos' with
    | endCycle => exact absurd he (Nat.ne_of_lt (idx_body_lt ht hl))
    | body p' n' r' q' h' =>
      obtain ⟨rfl, rfl, rfl, rfl⟩ := idx_injective ht hl hl' he
      rfl

/-- The position one address lower has the line state the Timeline holds before a position. -/
theorem exists_line_before (hD : 5 ≤ cfg.depth) (hD8 : cfg.depth ≤ 8) {pos : Position} (hl : pos.legal cfg = true)
    {i : Nat} (hi : pos.idx cfg.depth = i + 1) :
    ∃ before : Position, before.legal cfg = true ∧ before.idx cfg.depth = i ∧
      lineBefore light cfg F pos = lineAt light cfg F before := by
  have hle := idx_le_bodyLen ht hl
  obtain ⟨before, hlb, hidx⟩ := exists_position_of_idx ht hD hD8 (i := i) (by omega)
  cases before with
  | endCycle =>
    rw [Position.idx] at hidx
    omega
  | body p n r q h =>
    obtain ⟨-, hline, hlnext⟩ := lineBefore_next light cfg F p n r q h hlb ht
    have hnext := idx_nextTimeline ht hlb
    exact ⟨_, hlb, hidx, (lineBefore_eq_of_idx_eq light F ht hl hlnext (by omega)).trans hline⟩

/-- R181: by induction on the address. -/
theorem getElem?_lineStates (hD : 5 ≤ cfg.depth) (hD8 : cfg.depth ≤ 8) {pos : Position} (hl : pos.legal cfg = true) :
    (lineStates light cfg F (cycleProgram cfg.depth) Lines.g0)[pos.idx cfg.depth]? = some (lineAt light cfg F pos) := by
  have hstep := getElem?_cycleProgram hD8 ht hl
  rw [← apply_lineBefore light cfg F pos hD hD8 hl (not_hold_of_timeline ht hl), ← apply_stepAt]
  cases hi : pos.idx cfg.depth with
  | zero =>
    have hstart : pos.isCycleStart cfg.depth = true := by
      by_contra hc
      have := idx_pos_of_not_cycleStart ht hD hl (Bool.eq_false_iff.mpr hc)
      omega
    rw [hi] at hstep
    rw [lineBefore_cycleStart light cfg F hstart]
    exact getElem?_lineStates_zero light cfg F hstep Lines.g0
  | succ i =>
    obtain ⟨before, hlb, hidx, hline⟩ := exists_line_before light F ht hD hD8 hl hi
    rw [hi] at hstep
    rw [hline]
    refine getElem?_lineStates_succ light cfg F hstep ?_
    rw [← hidx]
    exact getElem?_lineStates hD hD8 hlb
termination_by pos.idx cfg.depth
decreasing_by omega

end Timeline

end LineStates

/-- Settles O27: the recursion of R180 and the closed form agree address by address. -/
theorem timelineHasClosedForm : Obligations.TimelineHasClosedForm :=
  fun light _ F hD hD8 ht _ hl => getElem?_lineStates light F ht hD hD8 hl

/-! ## The tick drives the line state of its position -/

/-- t is reached from s by one bus write, of the line state R181 gives the position of s for the frame t holds. -/
def ShowsProgram (s t : State) : Prop :=
  t.lines = lineAt s.light s.cfg t.actFrame s.seq ∧ t.trace = .write t.lines.word :: s.trace ∧
    t.bus &&& s.masks.driven = pack s.cfg.pins t.lines

/-- A swap, or none, before the bus write changes nothing but the frame (R238, R244). -/
theorem showsProgram_drive {s s1 : State} (hm : s.masks = deriveMasks s.cfg.pins)
    (hs1 : s1 = adopt s ∨ s1 = acquire s ∨ s1 = s) (pos : Position) :
    ShowsProgram s { drive (lineAt s.light s.cfg s1.actFrame s.seq) s1 with seq := pos } := by
  have hkept : s1.cfg = s.cfg ∧ s1.masks = s.masks ∧ s1.trace = s.trace := by
    rcases hs1 with rfl | rfl | rfl <;> simp
  obtain ⟨hcfg, hmasks, htrace⟩ := hkept
  refine ⟨rfl, ?trace, ?bus⟩
  case trace => simp only [drive_trace, drive_lines, htrace]
  case bus => simp only [drive_bus, drive_lines, hcfg, hmasks, hm, maskedWrite_and, pack_and_driven]

/-- R185: with no stop to obey and outside the hold phase, both strategies' ticks (R236, R243) do so. -/
theorem tickRunning_showsProgram {s : State} (h : Inv s) (hr : s.run = .running)
    (hstop : s.seq.isRowStart = true → s.stopreq = false)
    (hq : ∀ p n r q h, s.seq = .body p n r q h → q.val ≠ 198) : ∃ t, tickRunning s = .next t ∧ ShowsProgram s t := by
  have hv := h.active_configured (by simp [hr])
  have hc := h.configured hv
  obtain ⟨-, -, hm⟩ := h.configured hv
  obtain ⟨hl, -⟩ := h.running_position hr
  have hgo : ¬ (s.seq.isRowStart && s.stopreq) = true := by
    intro hboth
    obtain ⟨hrow, hset⟩ := Bool.and_eq_true_iff.mp hboth
    exact absurd ((hstop hrow).symm.trans hset) (by decide)
  rw [tickRunning, if_pos hv, if_neg hgo, if_pos hl]
  cases ht : s.cfg.strategy with
  | timeline =>
    exact ⟨_, tickTimeline_eq hc ht hl, showsProgram_drive hm ((ite_eq_or_eq _ _ _).imp_right .inr) _⟩
  | direct =>
    exact ⟨_, tickDirect_eq h hr hc ht hq, showsProgram_drive hm (.inr (ite_eq_or_eq _ _ _)) _⟩

theorem step_of_tick_running {s : State} {later : List AgentStep} (hs : s.schedule = .tick :: later)
    (hr : s.run = .running) : step s = tickRunning { s with schedule := later } := by
  rw [step_of_schedule_cons hs]
  simp only [agentStep, tick, hr]

/-- Settles O47: the step is the running engine's tick, and the schedule is nothing a tick reads. -/
theorem bothStrategiesDriveTheProgram : Obligations.BothStrategiesDriveTheProgram := by
  intro s later h hr hs hstop hq
  rw [step_of_tick_running hs hr]
  exact tickRunning_showsProgram (inv_schedule h later) hr hstop hq

/-! ## The words of a Timeline, at their positions -/

/-- The configuration with the Timeline strategy, whose positions number the words; the encoder reads the depth and the
channel map alone. -/
def asTimeline (cfg : Cfg) : Cfg := { cfg with strategy := .timeline }

theorem lineStates_asTimeline (light : Table) (cfg : Cfg) (F : Frame) (steps : List ProgramStep) (L : Lines) :
    lineStates light (asTimeline cfg) F steps L = lineStates light cfg F steps L := by
  induction steps generalizing L with
  | nil => rfl
  | cons st rest ih => exact congrArg (List.cons _) (ih _)

section Words

variable {light : Table} {cfg : Cfg} {F : Frame} (hD : 5 ≤ cfg.depth) (hD8 : cfg.depth ≤ 8)
include hD hD8

/-- Every word is the closed form's at a position (R180, R181). -/
theorem exists_position_of_word {i : Nat} {L : Lines}
    (hL : (lineStates light cfg F (cycleProgram cfg.depth) Lines.g0)[i]? = some L) :
    ∃ pos : Position, pos.legal (asTimeline cfg) = true ∧ pos.idx cfg.depth = i ∧ L = lineAt light cfg F pos := by
  obtain ⟨hi, -⟩ := List.getElem?_eq_some_iff.mp hL
  rw [length_lineStates, length_cycleProgram hD8] at hi
  obtain ⟨pos, hl, rfl⟩ := exists_position_of_idx (cfg := asTimeline cfg) rfl hD hD8 (Nat.le_of_lt_succ hi)
  have hline := getElem?_lineStates (cfg := asTimeline cfg) light F rfl hD hD8 hl
  rw [lineStates_asTimeline] at hline
  exact ⟨pos, hl, rfl, Option.some.inj (hL.symm.trans hline)⟩

theorem exists_position_of_step {i : Nat} {st : ProgramStep} {L : Lines} (hst : (cycleProgram cfg.depth)[i]? = some st)
    (hL : (lineStates light cfg F (cycleProgram cfg.depth) Lines.g0)[i]? = some L) :
    ∃ pos : Position, pos.legal (asTimeline cfg) = true ∧ st.op = pos.microOp ∧ L = lineAt light cfg F pos := by
  obtain ⟨pos, hl, rfl, rfl⟩ := exists_position_of_word hD hD8 hL
  have hstep := getElem?_cycleProgram (cfg := asTimeline cfg) hD8 rfl hl
  obtain rfl : st = stepAt pos := Option.some.inj (hst.symm.trans hstep)
  exact ⟨pos, hl, stepAt_op pos, rfl⟩

end Words

/-! ## Frames whose entries are all one -/

/-- CLR is phase 0 alone (R97). -/
theorem phaseDecode_eq_clr_iff {r : Fin 32} {q : Fin 199} {h : Nat} : phaseDecode r q h = .clr ↔ q.val = 0 := by
  unfold phaseDecode
  split
  · next hq => simp [hq]
  · next hq =>
    refine iff_of_false ?_ hq
    split
    · split <;> nofun
    · split <;> nofun

/-- The RGB lines of a word, where the entries of the planes shown are all e: R181 has them low in CLR and an entry
everywhere else. -/
theorem lineAt_rgb_of_entries {light : Table} {cfg : Cfg} {F : Frame} {e : Entry} (hD : 5 ≤ cfg.depth)
    (he : ∀ (p : Fin 8) (r : Fin 32) (c : Fin 64), p.val < cfg.depth → bptEntry light cfg F p r c = e)
    {pos : Position} (hl : pos.legal (asTimeline cfg) = true) :
    (lineAt light cfg F pos).rgb = if pos.microOp = .clr then 0 else e := by
  cases pos with
  | endCycle => exact he 0 31 63 (Nat.lt_of_lt_of_le (by decide) hD)
  | body p n r q h =>
    obtain ⟨hp, -, -⟩ := (legal_timeline_body (cfg := asTimeline cfg) rfl).mp hl
    simp only [lineAt, Position.microOp, phaseDecode_eq_clr_iff, he p r _ hp, ite_self]

theorem pixel_uniform (px : Pixel) (x y : Fin 64) : (Frame.uniform px).pixel x y = px := List.getElem_replicate _

theorem corr_uniform (light : Table) (px : Pixel) (x y : Fin 64) (ch : Channel) :
    corr light (Frame.uniform px) x y ch = light.read (pixelChannel px ch) := by
  rw [corr, pixel_uniform]

theorem slice_zero (depth : Nat) (p : Fin 8) : slice depth 0 p = false := BitVec.getLsbD_zero

theorem slice_255 {depth : Nat} (hD8 : depth ≤ 8) {p : Fin 8} (hp : p.val < depth) : slice depth 255 p = true := by
  have hoff : planeOffset depth p < 8 := by
    rw [planeOffset]
    omega
  rw [slice, show (255 : Byte) = BitVec.allOnes 8 from rfl, BitVec.getLsbD_allOnes, decide_eq_true hoff]

/-- An entry is known by its six bits. -/
theorem bptEntry_eq {light : Table} {cfg : Cfg} {F : Frame} {p : Fin 8} {r : Fin 32} {c : Fin 64} {e : Entry}
    (h : ∀ k : Fin 6, slice cfg.depth (corr light F c (lineSource cfg.chanMap r k).1 (lineSource cfg.chanMap r k).2) p =
      e.getLsbD k.val) : bptEntry light cfg F p r c = e :=
  BitVec.eq_of_getLsbD_eq fun k hk => (bptEntryPacksSixLines light cfg F p r c ⟨k, hk⟩).trans (h ⟨k, hk⟩)

theorem bptEntry_blank {light : Table} (h0 : light.read 0 = 0) (cfg : Cfg) (p : Fin 8) (r : Fin 32) (c : Fin 64) :
    bptEntry light cfg Frame.blank p r c = 0 := by
  refine bptEntry_eq fun k => ?_
  have hch (ch : Channel) : pixelChannel ⟨0, 0, 0⟩ ch = 0 := by cases ch <;> rfl
  rw [Frame.blank, corr_uniform, hch, h0, slice_zero, BitVec.ofNat_eq_ofNat, BitVec.getLsbD_zero]

theorem bptEntry_white {light : Table} (h255 : light.read 255 = 255) {cfg : Cfg} (hD8 : cfg.depth ≤ 8) {p : Fin 8}
    (hp : p.val < cfg.depth) (r : Fin 32) (c : Fin 64) :
    bptEntry light cfg (Frame.uniform ⟨255, 255, 255⟩) p r c = 0x3F := by
  refine bptEntry_eq fun k => ?_
  have hch (ch : Channel) : pixelChannel ⟨255, 255, 255⟩ ch = 255 := by cases ch <;> rfl
  rw [corr_uniform, hch, h255, slice_255 hD8 hp, show (0x3F : Entry) = BitVec.allOnes 6 from rfl,
    BitVec.getLsbD_allOnes, decide_eq_true k.isLt]

/-- Lines 0 and 3 carry red, the others a channel that is 0 (R174, R91). -/
theorem bptEntry_red {light : Table} (h0 : light.read 0 = 0) (h255 : light.read 255 = 255) {cfg : Cfg}
    (hD8 : cfg.depth ≤ 8) (hmap : cfg.chanMap = ⟨.red, .green, .blue⟩) {p : Fin 8} (hp : p.val < cfg.depth) (r : Fin 32)
    (c : Fin 64) : bptEntry light cfg (Frame.uniform ⟨255, 0, 0⟩) p r c = 0x09 := by
  have hred : slice cfg.depth (light.read 255) p = true := by rw [h255, slice_255 hD8 hp]
  have hother : slice cfg.depth (light.read 0) p = false := by rw [h0, slice_zero]
  refine bptEntry_eq fun k => ?_
  rw [corr_uniform, hmap]
  match k with
  | 0 | 3 => exact hred
  | 1 | 2 | 4 | 5 => exact hother

/-- Settles O28: the top plane is the first of the planes, and all its entries, as every plane's, are all ones. -/
theorem topPlaneIsScannedFirst : Obligations.TopPlaneIsScannedFirst := by
  refine ⟨fun depth p hD hD8 hp => ⟨length_scanSteps p, ?scans⟩, fun light cfg h255 hD hD8 i st L hst hL => ?words⟩
  case scans =>
    obtain ⟨d, rfl⟩ : ∃ d, depth = d + 1 := ⟨depth - 1, by omega⟩
    obtain rfl : d = p.val := by omega
    rw [cycleProgram, planesDown_succ p.isLt, List.append_assoc, Nat.add_sub_cancel]
    exact List.take_left' (length_planeSteps p)
  case words =>
    obtain ⟨pos, hl, hop, rfl⟩ := exists_position_of_step hD hD8 hst hL
    rw [hop]
    exact lineAt_rgb_of_entries hD (fun p r c hp => bptEntry_white h255 hD8 hp r c) hl

/-- Settles O31: the RGB lines show 0 in CLR and the entry 0x09 in every other word. -/
theorem redFrameDrivesOnlyRedLines : Obligations.RedFrameDrivesOnlyRedLines := by
  intro light cfg h0 h255 hD hD8 hmap red
  have hentry (p : Fin 8) (r : Fin 32) (c : Fin 64) (hp : p.val < cfg.depth) : bptEntry light cfg red p r c = 0x09 :=
    bptEntry_red h0 h255 hD8 hmap hp r c
  refine ⟨hentry, fun L hL => ?low, fun i st c L hst hop hL => ?data⟩
  case low =>
    obtain ⟨i, hi⟩ := List.mem_iff_getElem?.mp hL
    obtain ⟨pos, hl, -, rfl⟩ := exists_position_of_word hD hD8 hi
    rw [lineAt_rgb_of_entries hD hentry hl]
    split <;> rfl
  case data =>
    obtain ⟨pos, hl, hpos, rfl⟩ := exists_position_of_step hD hD8 hst hL
    rw [lineAt_rgb_of_entries hD hentry hl, ← hpos, hop, if_neg nofun]

/-! ## Where the output is disabled -/

/-- R181: the output is disabled in the words OED, LTL, LTH and ADR, and before them in the first row of the cycle. -/
theorem lineAt_oe_body (light : Table) (cfg : Cfg) (F : Frame) (p n r q h) :
    (lineAt light cfg F (.body p n r q h)).oe = true ↔
      (193 ≤ q.val ∧ q.val ≤ 196) ∨ (q.val < 193 ∧ p.val + 1 = cfg.depth ∧ n = 0 ∧ r = 0) := by
  simp only [lineAt]
  split
  · next hq => simp [hq, Nat.not_lt.mpr hq]
  · next hq => simp [hq, Nat.lt_of_not_le hq, and_assoc]

/-- The phase of a word is its address modulo the length of a row. -/
theorem idx_body_mod (depth : Nat) {p n r} {q : Fin 199} {h} (hq : q.val ≤ 197) :
    (Position.body p n r q h).idx depth % 198 = q.val := by
  simp only [Position.idx, Config.scanLen, Config.rowLen]
  omega

/-- The first row of the cycle has the addresses below 198. -/
theorem idx_body_lt_row_iff {cfg : Cfg} (ht : cfg.strategy = .timeline) {p n r q h}
    (hl : (Position.body p n r q h).legal cfg = true) :
    (Position.body p n r q h).idx cfg.depth < 198 ↔ p.val + 1 = cfg.depth ∧ n = 0 ∧ r = 0 := by
  obtain ⟨hp, hn, hq⟩ := (legal_timeline_body ht).mp hl
  have hpow : 2 ^ (p.val + 1) ≤ 2 ^ cfg.depth := Nat.pow_le_pow_right (by omega) hp
  have hlower : p.val + 1 < cfg.depth → 2 ^ (p.val + 1) < 2 ^ cfg.depth := Nat.pow_lt_pow_right (by omega)
  simp only [Position.idx, Config.scanLen, Config.rowLen]
  constructor
  · intro hidx
    have htop : p.val + 1 = cfg.depth := by
      by_contra hne
      have := hlower (by omega)
      omega
    exact ⟨htop, Fin.ext (by rw [Fin.val_zero]; omega), Fin.ext (by rw [Fin.val_zero]; omega)⟩
  · rintro ⟨htop, rfl, rfl⟩
    rw [htop, Fin.val_zero, Fin.val_zero]
    omega

/-- The words OED, LTL, LTH and ADR of a row, by their phase (R97). -/
def inWindow (q : Nat) : Bool := decide (193 ≤ q) && decide (q ≤ 196)

/-- R187: the addresses of the words with the output disabled, in a Timeline of so many rows. -/
def disabledAt (rows i : Nat) : Bool :=
  (inWindow (i % 198) && decide (i < 198 * rows)) || decide (i < 193) || decide (i = 198 * rows)

theorem disabledAt_iff {rows i : Nat} :
    disabledAt rows i = true ↔ (193 ≤ i % 198 ∧ i % 198 ≤ 196 ∧ i < 198 * rows) ∨ i < 193 ∨ i = 198 * rows := by
  simp only [disabledAt, inWindow, Bool.or_eq_true, Bool.and_eq_true, decide_eq_true_eq, or_assoc, and_assoc]

theorem bodyLen_eq_rows (depth : Nat) : bodyLen depth = 198 * (32 * (2 ^ depth - 1)) := by
  simp only [bodyLen, Config.scanLen, Config.rowLen]
  omega

/-- R181 by addresses: the closed form has the output disabled at these. -/
theorem lineAt_oe_eq_disabledAt (light : Table) (F : Frame) {cfg : Cfg} (ht : cfg.strategy = .timeline) {pos : Position}
    (hl : pos.legal cfg = true) :
    (lineAt light cfg F pos).oe = disabledAt (32 * (2 ^ cfg.depth - 1)) (pos.idx cfg.depth) := by
  rw [Bool.eq_iff_iff, disabledAt_iff, ← bodyLen_eq_rows]
  cases pos with
  | endCycle => exact iff_of_true rfl (.inr (.inr rfl))
  | body p n r q h =>
    obtain ⟨-, -, hq⟩ := (legal_timeline_body ht).mp hl
    have hlt := idx_body_lt ht hl
    have hmod : (Position.body p n r q h).idx cfg.depth % 198 = q.val := idx_body_mod cfg.depth hq
    rw [lineAt_oe_body, ← idx_body_lt_row_iff ht hl, ← hmod]
    generalize (Position.body p n r q h).idx cfg.depth = i at hlt hmod ⊢
    omega

/-! ## How many words have the output disabled -/

theorem countP_window_row : (List.range 198).countP (fun i => inWindow (i % 198)) = 4 := by decide

theorem countP_first_row : (List.range 198).countP (fun i => inWindow (i % 198) || decide (i < 193)) = 197 := by
  decide +kernel

/-- Four words of every row. -/
theorem countP_windows (rows : Nat) : (List.range (198 * rows)).countP (fun i => inWindow (i % 198)) = 4 * rows := by
  induction rows with
  | zero => rfl
  | succ rows ih =>
    rw [Nat.mul_succ, List.range_add, List.countP_append, ih, List.countP_map, Nat.mul_succ]
    simp only [Function.comp_def, Nat.mul_add_mod, countP_window_row]

/-- All but OEE in the first row, four words in every other row, and END. -/
theorem countP_disabledAt (rows : Nat) (hrows : 0 < rows) :
    (List.range (198 * rows + 1)).countP (disabledAt rows) = 4 * rows + 193 + 1 := by
  obtain ⟨m, rfl⟩ : ∃ m, rows = m + 1 := ⟨rows - 1, by omega⟩
  have hfirst : (List.range 198).countP (disabledAt (m + 1)) = 197 := by
    rw [← countP_first_row]
    refine List.countP_congr fun i hi => ?_
    have hi' := List.mem_range.mp hi
    simp only [disabledAt_iff, inWindow, Bool.or_eq_true, Bool.and_eq_true, decide_eq_true_eq]
    omega
  have hrest : (List.range (198 * m)).countP (fun i => disabledAt (m + 1) (198 + i)) = 4 * m := by
    rw [← countP_windows]
    refine List.countP_congr fun i hi => ?_
    have hi' := List.mem_range.mp hi
    simp only [disabledAt_iff, inWindow, Bool.and_eq_true, decide_eq_true_eq]
    omega
  have hend : disabledAt (m + 1) (198 * (m + 1)) = true := disabledAt_iff.mpr (.inr (.inr rfl))
  rw [List.range_succ, List.countP_append, List.countP_singleton, hend, if_pos rfl, Nat.mul_succ, Nat.add_comm (198 * m),
    List.range_add, List.countP_append, List.countP_map, hfirst]
  simp only [Function.comp_def, hrest]
  omega

/-- Elements that are told by their address are counted by their addresses. -/
theorem countP_eq_countP_range {α : Type} {l : List α} {P : α → Bool} {Q : Nat → Bool}
    (h : ∀ i a, l[i]? = some a → P a = Q i) : l.countP P = (List.range l.length).countP Q := by
  have hmap : l.map P = (List.range l.length).map Q :=
    List.ext_getElem (by simp) fun i hi _ => by
      rw [List.length_map] at hi
      simpa using h i l[i] (List.getElem?_eq_getElem hi)
  calc l.countP P = (l.map P).countP id := by rw [List.countP_map]; rfl
    _ = (List.range l.length).countP Q := by rw [hmap, List.countP_map]; rfl

/-- Settles O30: every entry is 0, and the output-enable line follows the address. -/
theorem blackFrameTimeline : Obligations.BlackFrameTimeline := by
  intro light cfg h0 hD hD8 lines
  have hoe (i : Nat) (L : Lines) (hL : lines[i]? = some L) : L.oe = disabledAt (32 * (2 ^ cfg.depth - 1)) i := by
    obtain ⟨pos, hl, rfl, rfl⟩ := exists_position_of_word hD hD8 hL
    exact lineAt_oe_eq_disabledAt (cfg := asTimeline cfg) light Frame.blank rfl hl
  have hrows : 198 * (32 * (2 ^ cfg.depth - 1)) = 6336 * (2 ^ cfg.depth - 1) := by omega
  refine ⟨fun L hL => ?rgb, fun i L hL => ?oe, ?count⟩
  case rgb =>
    obtain ⟨i, hi⟩ := List.mem_iff_getElem?.mp hL
    obtain ⟨pos, hl, -, rfl⟩ := exists_position_of_word hD hD8 hi
    rw [lineAt_rgb_of_entries hD (fun p r c _ => bptEntry_blank h0 cfg p r c) hl, ite_self]
  case oe => rw [hoe i L hL, disabledAt_iff, hrows]
  case count =>
    have hpow : 2 ^ 5 ≤ 2 ^ cfg.depth := Nat.pow_le_pow_right (by omega) hD
    have hlen : lines.length = 198 * (32 * (2 ^ cfg.depth - 1)) + 1 := by
      rw [length_lineStates, length_cycleProgram hD8, bodyLen_eq_rows]
    rw [countP_eq_countP_range hoe, hlen, countP_disabledAt _ (by omega)]
    omega

/-! ## In how many scans of a cycle a line is high -/

theorem countP_flatMap_finRange_of_unique {α : Type} {n : Nat} {f : Fin n → List α} {P : α → Bool} (a : Fin n)
    (h : ∀ i, i ≠ a → (f i).countP P = 0) : ((List.finRange n).flatMap f).countP P = (f a).countP P := by
  rw [List.countP_flatMap, ← Fin.sum_univ_def]
  exact Finset.sum_eq_single a (fun i _ hi => h i hi) fun ha => absurd (Finset.mem_univ a) ha

/-- A DATA step of the pixel at row r and column c, in a plane where its line is high. -/
def showsPixel (r : Fin 32) (c : Fin 64) (high : Fin 8 → Bool) (st : ProgramStep) : Bool :=
  st.row == r && st.op == Instr.data c && high st.plane

section ShowsPixel

variable (r : Fin 32) (c : Fin 64) (high : Fin 8 → Bool)

theorem countP_windowSteps (p : Fin 8) (r' : Fin 32) : (windowSteps p r').countP (showsPixel r c high) = 0 := by
  simp [windowSteps, showsPixel]

theorem countP_colSteps (p : Fin 8) (r' : Fin 32) (c' : Fin 64) :
    (colSteps p r' c').countP (showsPixel r c high) = if r' = r ∧ c' = c then (high p).toNat else 0 := by
  by_cases hrc : r' = r ∧ c' = c
  · obtain ⟨rfl, rfl⟩ := hrc
    cases hp : high p <;> simp [colSteps, showsPixel, hp]
  · have hne : r' = r → c' ≠ c := fun hr hc => hrc ⟨hr, hc⟩
    rw [if_neg hrc]
    simpa [colSteps, showsPixel] using fun hr hc => absurd hc (hne hr)

theorem countP_rowSteps (p : Fin 8) (r' : Fin 32) :
    (rowSteps p r').countP (showsPixel r c high) = if r' = r then (high p).toNat else 0 := by
  have hcols : ((List.finRange 64).flatMap (colSteps p r')).countP (showsPixel r c high) =
      if r' = r then (high p).toNat else 0 := by
    rw [countP_flatMap_finRange_of_unique c fun c' hc' => by simp [countP_colSteps, hc'], countP_colSteps]
    simp
  have hclr : showsPixel r c high ⟨p, r', .clr⟩ = false := by simp [showsPixel]
  rw [rowSteps, List.countP_append, countP_windowSteps, List.countP_cons_of_neg (by simp [hclr]), hcols, Nat.add_zero]

/-- Each scan has one DATA step of the pixel. -/
theorem countP_scanSteps (p : Fin 8) : (scanSteps p).countP (showsPixel r c high) = (high p).toNat := by
  rw [scanSteps, countP_flatMap_finRange_of_unique r fun r' hr' => by rw [countP_rowSteps, if_neg hr'],
    countP_rowSteps, if_pos rfl]

theorem countP_planeSteps (p : Fin 8) :
    (planeSteps p).countP (showsPixel r c high) = 2 ^ p.val * (high p).toNat := by
  rw [planeSteps, List.countP_flatten, List.map_replicate, List.sum_replicate, countP_scanSteps, repeats, smul_eq_mul]

/-- R177: the scans weigh bit p of x by 2^p. -/
theorem countP_planesDown {d x : Nat} (hd : d ≤ 8) (hhigh : ∀ p : Fin 8, p.val < d → high p = x.testBit p.val) :
    (planesDown d).countP (showsPixel r c high) = x % 2 ^ d := by
  induction d with
  | zero => rw [Nat.pow_zero, Nat.mod_one]; rfl
  | succ d ih =>
    rw [planesDown_succ hd, List.countP_append, countP_planeSteps, ih (by omega) fun p hp => hhigh p (by omega),
      hhigh ⟨d, hd⟩ (Nat.lt_succ_self d), Nat.mod_pow_succ, ← Nat.toNat_testBit, Nat.add_comm]

theorem countP_cycleProgram {depth x : Nat} (hD8 : depth ≤ 8) (hx : x < 2 ^ depth)
    (hhigh : ∀ p : Fin 8, p.val < depth → high p = x.testBit p.val) :
    (cycleProgram depth).countP (showsPixel r c high) = x := by
  have hend : showsPixel r c high ⟨0, 31, .endCycle⟩ = false := by simp [showsPixel]
  rw [cycleProgram, List.countP_append, countP_planesDown r c high hD8 hhigh, Nat.mod_eq_of_lt hx,
    List.countP_singleton, hend]
  rfl

end ShowsPixel

/-- Settles O29: the line is high in plane p as bit p of the top D bits says; every plane's scans count 2^D − 1. -/
theorem shownIntensityIsTopBits : Obligations.ShownIntensityIsTopBits := by
  intro light cfg F r c k _ hD8
  refine ⟨?scansHigh, ?scans⟩
  case scansHigh =>
    refine countP_cycleProgram r c (fun p => (bptEntry light cfg F p r c).getLsbD k.val) hD8 (topBits_lt hD8 _) ?_
    intro p _
    rw [bptEntryPacksSixLines, slice_eq_testBit]
  case scans =>
    have hall : (cycleProgram cfg.depth).countP (showsPixel r c fun _ => true) = 2 ^ cfg.depth - 1 :=
      countP_cycleProgram r c _ hD8 (Nat.sub_one_lt (Nat.two_pow_pos _).ne') fun p hp => by
        rw [Nat.testBit_two_pow_sub_one, decide_eq_true hp]
    have hdata : (showsPixel r c fun _ => true) = fun st => st.row == r && st.op == Instr.data c :=
      funext fun _ => Bool.and_true _
    rwa [hdata] at hall

end Sys2Proof.Proofs

/-! PROOFS. The family of 44_sequencer_microops.md: what each micro-operation drives (R201 to R211), the entry DATA
takes (R202), the hold and its ticks (R212, R246, R247), and how many line groups one word changes (R213, R305). -/

namespace Sys2Proof.Proofs

open Sys2Proof Sys2Proof.Machine

/-! ## One bus write -/

/-- A bus write in a configured block shows the line state on the 14 positions (R232). -/
theorem drivenTo_drive {s : State} (hc : Configured s) (L : Lines) : DrivenTo s L (drive L s) := by
  obtain ⟨-, ⟨-, hp, -⟩, hm⟩ := hc
  have hshows := busShows_drive s.cfg.pins s.cfg.width hp s.bus L
  rw [← hm] at hshows
  exact ⟨_, hshows, rfl⟩

/-- An operation that is a bus write completes in a configured block. -/
theorem exec_drivenTo {s : State} {i : Instr} {L : Lines} (hc : Configured s) (h : exec i s = driveLines L s) :
    ∃ t, exec i s = .next t ∧ DrivenTo s L t :=
  ⟨drive L s, h.trans (driveLines_of_valid hc.1), drivenTo_drive hc L⟩

/-- Settles O19: the meaning of each of the ten is the bus write of its own line state. -/
theorem microOperationsDriveTheirLines : Obligations.MicroOperationsDriveTheirLines := fun _ hc =>
  ⟨exec_drivenTo hc rfl, exec_drivenTo hc rfl, exec_drivenTo hc rfl, exec_drivenTo hc rfl, exec_drivenTo hc rfl,
    exec_drivenTo hc rfl, fun _ => exec_drivenTo hc rfl, exec_drivenTo hc rfl, exec_drivenTo hc rfl,
    exec_drivenTo hc rfl⟩

/-- Settles O20: the bus write is of the entry that DATA's position selects, and that entry's bits are O24's. -/
theorem dataDrivesSlicedPixelBits : Obligations.DataDrivesSlicedPixelBits := by
  intro s p n r q h c hc hseq
  have hexec : exec (.data c) s = driveLines (s.lines.data (bptEntry s.light s.cfg s.actFrame p r c)) s := by
    show execData c s = _
    rw [execData, atPosition_of_valid hc.1, hseq]
  obtain ⟨t, hnext, hdriven⟩ := exec_drivenTo hc hexec
  exact ⟨_, t, hnext, hdriven, bptEntryPacksSixLines s.light s.cfg s.actFrame p r c⟩

/-! ## HOLD -/

/-- HOLD at a body position of a configured block: one tick of the hold goes by (R212). -/
theorem exec_hold {s : State} (hv : s.cfgValid = true) {p n r q h'} (hseq : s.seq = .body p n r q h') (h : Nat) :
    exec (.hold h) s = .next { s with
      seq := if 1 < h then .body p n r 198 (h - 1) else nextRow p r, trace := .hold :: s.trace } := by
  show execHold h s = _
  rw [execHold, atPosition_of_valid hv, hseq]

section NextRow

variable {p : Fin 8} {r : Fin 32}

theorem nextRow_of_row_lt (hr : r.val < 31) : nextRow p r = .body p 0 (r + 1) 0 0 := if_pos hr

theorem nextRow_of_last_row (hr : r.val = 31) (hp : 0 < p.val) : nextRow p r = .body (p - 1) 0 0 0 0 := by
  simp [nextRow, hr, hp]

theorem nextRow_of_last_plane (hr : r.val = 31) (hp : p.val = 0) : nextRow p r = .endCycle := by
  simp [nextRow, hr, hp]

end NextRow

/-- Settles O21: a count above 1 goes down; otherwise NextRow is the next row's, the next plane's, or End. -/
theorem holdCountsDownThenNextRow : Obligations.HoldCountsDownThenNextRow := by
  intro s p n r q h h' hv hseq
  have hexec := exec_hold hv hseq h
  refine ⟨fun hh => ?counts, fun hh hr => ⟨r + 1, fin_add_one_val r (by omega), ?row⟩,
    fun hh hr hp => ⟨p - 1, by rw [fin_sub_one_val p hp]; omega, ?plane⟩, fun hh hr hp => ?last⟩
  case counts => rw [hexec, if_pos hh]
  case row => rw [hexec, if_neg (by omega), nextRow_of_row_lt hr]
  case plane => rw [hexec, if_neg (by omega), nextRow_of_last_row hr hp]
  case last => rw [hexec, if_neg (by omega), nextRow_of_last_plane hr hp]

/-! ## The ticks of a hold -/

/-- A Direct engine runs at a reachable position. -/
structure DirectRunning (s : State) : Prop where
  configured : Configured s
  strategy : s.cfg.strategy = .direct
  run : s.run = .running
  legal : s.seq.legal s.cfg = true

section DirectRunning

variable {s : State} {later : List AgentStep} {p : Fin 8} {n : Fin 128} {r : Fin 32} {h : Nat}

/-- Inside a row no stop is looked for (R237), so that the scheduled tick is TickDirect. -/
theorem step_of_direct_in_row (hd : DirectRunning s) (hs : s.schedule = .tick :: later)
    (hrow : s.seq.isRowStart = false) : step s = tickDirect { s with schedule := later } := by
  rw [step_of_tick_running hs hd.run]
  simp [tickRunning, hd.configured.1, hrow, hd.legal, hd.strategy]

/-- One tick of the hold phase (R212). -/
theorem step_of_hold (hd : DirectRunning s) (hseq : s.seq = .body p n r 198 h) (hs : s.schedule = .tick :: later) :
    step s = .next { s with
      seq := if 1 < h then .body p n r 198 (h - 1) else nextRow p r, schedule := later, trace := .hold :: s.trace } := by
  rw [step_of_direct_in_row hd hs (by rw [hseq]; rfl)]
  exact tickDirect_hold (s := { s with schedule := later }) hd.configured.1 p n r 198 h hseq rfl

/-- From a count of k + 1, as many ticks end the hold at the next row's position (R246). -/
theorem run_hold (k : Nat) (hd : DirectRunning s) (hseq : s.seq = .body p n r 198 (k + 1))
    (hs : s.schedule = ticks (k + 1) ++ later) :
    Host.Core.run core (k + 1) s = .next { s with
      seq := nextRow p r, schedule := later, trace := List.replicate (k + 1) .hold ++ s.trace } := by
  induction k generalizing s with
  | zero => exact run_succ (step_of_hold hd hseq hs) 0
  | succ k ih =>
    have hstep := step_of_hold hd hseq hs
    rw [if_pos (by omega)] at hstep
    have hlegal : (Position.body p n r 198 (k + 1)).legal s.cfg = true := by rw [← hd.legal, hseq]; rfl
    have hrest := ih (s := { s with
      seq := .body p n r 198 (k + 1), schedule := ticks (k + 1) ++ later, trace := .hold :: s.trace })
      { hd with legal := hlegal } rfl rfl
    refine ((run_succ hstep (k + 1)).trans hrest).trans ?_
    rw [List.replicate_succ' (n := k + 1), List.append_assoc]
    rfl

/-- The OEE word and what follows it: the hold phase with DWELL(p) ticks, or the next row (R209, R243, R247). -/
theorem tickDirect_oee (hv : s.cfgValid = true) (hseq : s.seq = .body p n r 197 h) :
    tickDirect s = .next { drive s.lines.oee s with
      seq := if 0 < dwell s.cfg p then .body p 0 r 198 (dwell s.cfg p) else nextRow p r } := by
  have hcs : (Position.body p n r 197 h).isCycleStart s.cfg.depth = false := by simp [Position.isCycleStart]
  have hexec : exec .oee s = .next (drive s.lines.oee s) := driveLines_of_valid hv
  have htick : tickDirect s = thenDo (exec .oee s) fun t => { t with seq := nextDirect t.cfg p r 197 } := by
    simp only [tickDirect, hseq, hcs]
    rfl
  rw [htick, hexec]
  rfl

/-- From the OEE word, DWELL(p) ticks later, the engine stands at the next row's position. -/
theorem run_row_end (hd : DirectRunning s) (hseq : s.seq = .body p n r 197 h)
    (hs : s.schedule = ticks (dwell s.cfg p + 1) ++ later) :
    Host.Core.run core (dwell s.cfg p + 1) s = .next { drive s.lines.oee s with
      seq := nextRow p r, schedule := later,
      trace := List.replicate (dwell s.cfg p) .hold ++ (drive s.lines.oee s).trace } := by
  have hstep := (step_of_direct_in_row hd hs (by rw [hseq]; rfl)).trans
    (tickDirect_oee (s := { s with schedule := ticks (dwell s.cfg p) ++ later }) hd.configured.1 hseq)
  refine (run_succ hstep _).trans ?_
  cases hdwell : dwell s.cfg p with
  | zero => rfl
  | succ k =>
    have hlegal : (Position.body p 0 r 198 (k + 1)).legal s.cfg = true := by
      have hl := hd.legal
      simp only [hseq, Position.legal, hd.strategy, Bool.and_eq_true] at hl ⊢
      obtain ⟨hp, -⟩ := hl
      exact ⟨hp, rfl⟩
    exact run_hold k (s := { drive s.lines.oee s with
      seq := .body p 0 r 198 (k + 1), schedule := ticks (k + 1) ++ later }) { hd with legal := hlegal } rfl rfl

end DirectRunning

/-- Settles O59: the OEE tick enters a hold of DWELL(p), if that is positive, and each tick of a hold counts one
down. -/
theorem holdTakesDwellTicks : Obligations.HoldTakesDwellTicks := by
  intro s later p n r h hc ht hr hl
  have hd : DirectRunning s := ⟨hc, ht, hr, hl⟩
  refine ⟨fun hseq hs => ?oee, fun hseq hh hs => ?hold⟩
  case hold =>
    obtain ⟨k, rfl⟩ := Nat.exists_eq_add_of_le' hh
    exact run_hold k hd hseq hs
  case oee =>
    rw [Nat.add_comm] at hs ⊢
    obtain ⟨b, hb, hdrive⟩ := drivenTo_drive hc s.lines.oee
    refine ⟨b, hb, (run_row_end hd hseq hs).trans ?_⟩
    rw [hdrive]
    rfl

/-! ## How many line groups one word changes -/

/-- The line state a running engine's micro-operation starts from: G0 at the cycle start, LINES elsewhere (R236,
R243). -/
def startLines (s : State) : Lines := if s.seq.isCycleStart s.cfg.depth then Lines.g0 else s.lines

theorem startLines_of_cycleStart {s : State} (hc : s.seq.isCycleStart s.cfg.depth = true) : startLines s = Lines.g0 :=
  if_pos hc

theorem startLines_elsewhere {s : State} (hc : s.seq.isCycleStart s.cfg.depth = false) : startLines s = s.lines := by
  simp [startLines, hc]

/-- A micro-operation, then a change of the state that leaves the lines. -/
theorem thenDo_exec_lines {i : Instr} {s t : State} {f : State → State} (h : thenDo (exec i s) f = .next t)
    (hm : i.isMicro = true) (hf : ∀ u, (f u).lines = u.lines) : ∃ e, t.lines = apply e i s.lines := by
  obtain ⟨u, hu, rfl⟩ := thenDo_eq_next h
  rw [hf]
  by_cases hh : ∃ k, i = .hold k
  · obtain ⟨k, rfl⟩ := hh
    obtain ⟨-, p, n, r, q, k', -, rfl⟩ := execHold_eq_next hu
    exact ⟨fun _ => 0, rfl⟩
  · obtain ⟨-, rfl⟩ := exec_micro_eq_next hm (fun k hk => hh ⟨k, hk⟩) hu
    exact ⟨_, rfl⟩

theorem tickTimeline_lines {s t : State} (hf : LinesFit s) (h : tickTimeline s = .next t) :
    ∃ e, t.lines = apply e s.seq.microOp (startLines s) := by
  unfold tickTimeline at h
  cases hc : s.seq.isCycleStart s.cfg.depth with
  | true =>
    simp only [hc, if_true, adopt_seq, adopt_cfg, lineBefore_cycleStart _ _ _ hc] at h
    rw [startLines_of_cycleStart hc]
    exact thenDo_exec_lines h (microOp_micro _) fun _ => rfl
  | false =>
    simp only [hc, Bool.false_eq_true, if_false, ← lines_of_linesFit hf hc] at h
    rw [startLines_elsewhere hc]
    exact thenDo_exec_lines h (microOp_micro _) fun _ => rfl

/-- The hold phase selects HOLD (R97). -/
theorem microOp_of_hold_phase {p n r} {q : Fin 199} {h} (hq : q.val = 198) :
    (Position.body p n r q h).microOp = .hold h := by
  obtain rfl : q = 198 := Fin.ext hq
  rfl

theorem tickDirect_lines {s t : State} (h : tickDirect s = .next t) :
    ∃ e, t.lines = apply e s.seq.microOp (startLines s) := by
  unfold tickDirect at h
  split at h
  · next hseq =>
    rw [startLines_elsewhere (by rw [hseq]; rfl), hseq]
    exact thenDo_exec_lines h rfl fun _ => rfl
  · next p n r q k hseq =>
    split at h
    · next hq =>
      rw [startLines_elsewhere, hseq, microOp_of_hold_phase hq]
      · obtain ⟨-, p, n, r, q, k', -, rfl⟩ := execHold_eq_next h
        exact ⟨fun _ => 0, rfl⟩
      · obtain rfl : q = 198 := Fin.ext hq
        simp [hseq, Position.isCycleStart]
    · have hacq : (if q.val = 0 then acquire s else s).lines = s.lines := by split <;> simp
      rw [← hseq] at h
      cases hc : s.seq.isCycleStart s.cfg.depth with
      | true =>
        rw [startLines_of_cycleStart hc]
        simp only [hc, if_true] at h
        exact thenDo_exec_lines h (microOp_micro _) fun _ => rfl
      | false =>
        rw [startLines_elsewhere hc, ← hacq]
        simp only [hc, Bool.false_eq_true, if_false] at h
        exact thenDo_exec_lines h (microOp_micro _) fun _ => rfl

/-- The engine stands where the two words that R213 excepts are written: the cycle-start word and the idle word. -/
def TakesRestWord (s : State) : Prop := (s.run = .running ∧ atCycleStart s) ∨ s.run = .stopping

/-- What a step can do to the lines of a block that stays configured: nothing, OED's word (of a stop or a fault), the
micro-operation of a running engine's position, or the cycle-start word and the idle word, both G0. -/
inductive LinesEffect (s : State) : Lines → Prop where
  | keeps : LinesEffect s s.lines
  | disables : LinesEffect s s.lines.oed
  | programs (e : Fin 64 → Entry) : s.run = .running → ¬ atCycleStart s →
      LinesEffect s (apply e s.seq.microOp s.lines)
  | rests : TakesRestWord s → LinesEffect s Lines.g0

/-- The lines do not depend on the schedule. -/
theorem linesEffect_of_schedule {s : State} {later : List AgentStep} {L : Lines}
    (h : LinesEffect { s with schedule := later } L) : LinesEffect s L := by
  cases h with
  | keeps => exact .keeps
  | disables => exact .disables
  | programs e hr hc => exact .programs e hr hc
  | rests h => exact .rests h

/-- The cycle start selects CLR (R97). -/
theorem microOp_of_isCycleStart {depth : Nat} {pos : Position} (hc : pos.isCycleStart depth = true) :
    pos.microOp = .clr := by
  cases pos with
  | endCycle => cases hc
  | body p n r q h =>
    obtain rfl : q = 0 := by simpa [Position.isRowStart] using isRowStart_of_isCycleStart hc
    rfl

theorem linesEffect_of_microOp {s : State} {L : Lines} (hr : s.run = .running)
    (h : ∃ e, L = apply e s.seq.microOp (startLines s)) : LinesEffect s L := by
  obtain ⟨e, rfl⟩ := h
  cases hc : s.seq.isCycleStart s.cfg.depth with
  | true =>
    rw [startLines_of_cycleStart hc, microOp_of_isCycleStart hc]
    exact .rests (.inl ⟨hr, hc⟩)
  | false =>
    rw [startLines_elsewhere hc]
    exact .programs e hr (by simp [atCycleStart, hc])

theorem tickRunning_linesEffect {s t : State} (h : Inv s) (hr : s.run = .running) (ht : tickRunning s = .next t) :
    LinesEffect s t.lines := by
  unfold tickRunning at ht
  split at ht
  · split at ht
    · obtain ⟨u, hu, rfl⟩ := thenDo_eq_next ht
      obtain ⟨-, rfl⟩ := driveLines_eq_next hu
      exact .disables
    · split at ht
      · refine linesEffect_of_microOp hr ?_
        split at ht
        · exact tickTimeline_lines (h.running_lines hr) ht
        · exact tickDirect_lines ht
      · cases ht
  · cases ht

theorem tick_linesEffect {s t : State} (h : Inv s) (ht : tick s = .next t) : LinesEffect s t.lines := by
  unfold tick at ht
  split at ht
  · cases ht; exact .keeps
  · next hr => exact tickRunning_linesEffect h hr ht
  · next hr =>
    obtain ⟨u, hu, rfl⟩ := thenDo_eq_next ht
    obtain ⟨-, rfl⟩ := driveLines_eq_next hu
    exact .rests (.inr hr)
  · cases ht; exact .keeps

/-- Of the host operations CONFIGURE and RESET alone write the lines, and they do not leave a configured block
configured. -/
theorem hostEffect_lines {op : Instr} {s t : State} (h : HostEffect op s t) (hv : s.cfgValid = true)
    (hv' : t.cfgValid = true) : t.lines = s.lines := by
  cases h with
  | accepts cfg hn _ => exact absurd (hv.symm.trans hn) (by decide)
  | publishes F u hu _ _ => rcases hu with ⟨rfl, -⟩ | rfl <;> rfl
  | replaces F u hu _ _ => rcases hu with ⟨rfl, -⟩ | rfl <;> rfl
  | resets _ => cases hv'
  | _ => rfl

theorem waiting_exec_lines {s t : State} (h : Inv s) (hv : s.cfgValid = true) (hv' : t.cfgValid = true) {i : Instr}
    {l : List Instr} (hi : i ∈ s.waiting) (he : exec i { s with waiting := l } = .next t) : t.lines = s.lines :=
  have hm := not_micro_of_waitsForLock (h.waiting_ops i hi).1
  hostEffect_lines (s := { s with waiting := l }) (exec_host_effect hm he) hv hv'

theorem linesEffect_of_eq {s t : State} (h : t.lines = s.lines) : LinesEffect s t.lines := by
  rw [h]; exact .keeps

theorem step_linesEffect {s t : State} (h : Inv s) (hstep : step s = .next t) (hv : s.cfgValid = true)
    (hv' : t.cfgValid = true) : LinesEffect s t.lines := by
  obtain ⟨a, later, -, ha⟩ | ⟨-, -, i, rest, hw, he⟩ | ⟨-, -, he⟩ := step_eq_next hstep
  · have h' := inv_schedule h later
    obtain ⟨bytes, rest, i, -, -, -, hm, he⟩ | ⟨k, -, rfl | ⟨i, hk, -, he⟩⟩ | ⟨-, he⟩ | ⟨w, -, rfl⟩ |
      ⟨c, -, ⟨-, he⟩ | ⟨-, rfl⟩⟩ := agentStep_eq_next ha
    · exact linesEffect_of_eq
        (hostEffect_lines (s := { s with schedule := later }) (exec_host_effect hm he) hv hv')
    · exact .keeps
    · exact linesEffect_of_eq
        (waiting_exec_lines (s := { s with schedule := later }) h' hv hv' (List.mem_of_getElem? hk) he)
    · exact linesEffect_of_schedule (tick_linesEffect h' he)
    · exact .keeps
    · obtain ⟨-, rfl⟩ := faultEntry_eq_next he
      exact .disables
    · exact .keeps
  · exact linesEffect_of_eq (waiting_exec_lines h hv hv' (by simp [hw]) he)
  · exact tick_linesEffect h he

/-- The phase decode selects IDLE nowhere (R97). -/
theorem microOp_ne_idle (pos : Position) : pos.microOp ≠ .idle := by
  cases pos with
  | endCycle => nofun
  | body p n r q h =>
    simp only [Position.microOp, phaseDecode]
    split
    · nofun
    · split
      · split <;> nofun
      · split <;> nofun

theorem changedGroups_eq (L M : Lines) :
    changedGroups L M = (L.rgb != M.rgb).toNat + (L.clk != M.clk).toNat + (L.lat != M.lat).toNat +
      (L.addr != M.addr).toNat + (L.oe != M.oe).toNat := by
  have hcount (b : Bool) (l : List Bool) : (b :: l).countP (fun d => d) = b.toNat + l.countP (fun d => d) := by
    cases b <;> simp [Nat.add_comm]
  simp only [changedGroups, hcount, List.countP_nil, Nat.add_assoc, Nat.add_zero]

/-- A micro-operation other than IDLE writes one line group (R201 to R210). -/
theorem changedGroups_apply (e : Fin 64 → Entry) {op : Instr} (hi : op ≠ .idle) (L : Lines) :
    changedGroups L (apply e op L) ≤ 1 := by
  have hrgb (x : Entry) : changedGroups L { L with rgb := x } ≤ 1 := by simp [changedGroups_eq, Bool.toNat_le]
  have hclk (x : Bool) : changedGroups L { L with clk := x } ≤ 1 := by simp [changedGroups_eq, Bool.toNat_le]
  have hlat (x : Bool) : changedGroups L { L with lat := x } ≤ 1 := by simp [changedGroups_eq, Bool.toNat_le]
  have haddr (x : BitVec 5) : changedGroups L { L with addr := x } ≤ 1 := by simp [changedGroups_eq, Bool.toNat_le]
  have hoe (x : Bool) : changedGroups L { L with oe := x } ≤ 1 := by simp [changedGroups_eq, Bool.toNat_le]
  cases op with
  | clr => exact hrgb 0
  | data c => exact hrgb (e c)
  | ckh => exact hclk true
  | ckl => exact hclk false
  | ltl => exact hlat false
  | lth => exact hlat true
  | adr r => exact haddr (rowAddress r)
  | oed => exact hoe true
  | oee => exact hoe false
  | endCycle => exact hoe true
  | idle => exact absurd rfl hi
  | _ => exact hrgb L.rgb

theorem changedGroups_of_linesEffect {s : State} {L : Lines} (h : LinesEffect s L) (hn : ¬ TakesRestWord s) :
    changedGroups s.lines L ≤ 1 := by
  cases h with
  | keeps => exact changedGroups_apply (fun _ => 0) (op := .hold 0) nofun s.lines
  | disables => exact changedGroups_apply (fun _ => 0) (op := .oed) nofun s.lines
  | programs e _ _ => exact changedGroups_apply e (microOp_ne_idle s.seq) s.lines
  | rests hrest => exact absurd hrest hn

/-- Before a word of the two exceptions the clock is low, the latch closed and the output disabled (R236, R242). -/
theorem lines_of_takesRestWord {s : State} (h : Inv s) (hrest : TakesRestWord s) :
    s.lines.clk = false ∧ s.lines.lat = true ∧ s.lines.oe = true := by
  obtain ⟨hr, hc⟩ | hr := hrest
  · have hcs : s.seq.isCycleStart s.cfg.depth = true := hc
    have hfit := h.running_lines hr
    rwa [LinesFit, if_pos hcs] at hfit
  · exact h.stopping_rest hr

/-- What such a step can write, OED's word and G0 among it, leaves those three lines. -/
theorem linesEffect_of_takesRestWord {s : State} {L : Lines} (h : Inv s) (hrest : TakesRestWord s)
    (heffect : LinesEffect s L) : L.clk = s.lines.clk ∧ L.lat = s.lines.lat ∧ L.oe = s.lines.oe := by
  obtain ⟨hclk, hlat, hoe⟩ := lines_of_takesRestWord h hrest
  cases heffect with
  | keeps => exact ⟨rfl, rfl, rfl⟩
  | disables => exact ⟨rfl, rfl, hoe.symm⟩
  | programs e hr hc =>
    obtain ⟨-, hc'⟩ | hr' := hrest
    · exact absurd hc' hc
    · cases hr.symm.trans hr'
  | rests _ => exact ⟨hclk.symm, hlat.symm, hoe.symm⟩

/-- Of one changed group at the most, where it is the clock, none is RGB. -/
theorem rgb_eq_of_clk_ne {L M : Lines} (h : changedGroups L M ≤ 1) (hclk : M.clk ≠ L.clk) : M.rgb = L.rgb := by
  by_contra hrgb
  have hc : (L.clk != M.clk) = true := bne_iff_ne.mpr hclk.symm
  have hr : (L.rgb != M.rgb) = true := bne_iff_ne.mpr (Ne.symm hrgb)
  rw [changedGroups_eq, hc, hr, Bool.toNat_true] at h
  omega

/-- Settles O49: away from the two exceptions the word is one micro-operation's; in them the clock stands, as do the
latch and the output enable. -/
theorem oneLineGroupPerWord : Obligations.OneLineGroupPerWord := by
  intro s t h hstep hv hv'
  have heffect := step_linesEffect h hstep hv hv'
  refine ⟨fun hn hn' => changedGroups_of_linesEffect heffect (not_or.mpr ⟨hn, hn'⟩),
    fun hrest => linesEffect_of_takesRestWord h hrest heffect, fun hclk => ?edge⟩
  case edge =>
    have hn : ¬ TakesRestWord s := fun hrest => hclk (linesEffect_of_takesRestWord h hrest heffect).1
    exact rgb_eq_of_clk_ne (changedGroups_of_linesEffect heffect hn) hclk

end Sys2Proof.Proofs

/-! PROOFS. The family of 45_refresh_engine.md: START, STOP, STATUS and RESET (R233, R234, R251, R252), the ticks of the
two strategies (R236, R243), the stop sequence and its bound (R237, R242), and the fault event (R250). -/

namespace Sys2Proof.Proofs

open Sys2Proof Sys2Proof.Machine

/-! ## The host operations that control the engine -/

section Start

variable {s : State}

theorem exec_start_of_unconfigured (hv : s.cfgValid = false) : exec .start s = .next (raise .notConfigured s) := by
  simp [exec, execStart, hv]

section Configured

variable (hv : s.cfgValid = true)
include hv

theorem exec_start_of_faulted (hr : s.run = .faulted) : exec .start s = .next (respond (.error s.err) s) := by
  simp only [exec, execStart, if_pos hv, hr]

theorem exec_start_of_idle (hr : s.run = .idle) :
    exec .start s = .next (respond .ok (setRun .running { clearStopreq s with seq := cycleStart s.cfg.depth })) := by
  simp only [exec, execStart, if_pos hv, hr]

theorem exec_start_of_active (hr : s.run = .running ∨ s.run = .stopping) : exec .start s = .next (respond .ok s) := by
  rcases hr with hr | hr <;> simp only [exec, execStart, if_pos hv, hr]

end Configured

end Start

/-- Settles O15: the configuration guard, then one branch for each value of ENG.run; the cycle starts in plane D − 1. -/
theorem startBeginsFreshCycle : Obligations.StartBeginsFreshCycle := fun s =>
  ⟨exec_start_of_unconfigured, exec_start_of_faulted,
    fun hv hr _ _ => ⟨Fin.ofNat 8 (s.cfg.depth - 1), Nat.mod_eq_of_lt (by omega), exec_start_of_idle hv hr⟩,
    exec_start_of_active⟩

/-- Settles O16: the answers depend on no guard, and the view spelled out is `statusView`. -/
theorem stopAndStatusInEveryState : Obligations.StopAndStatusInEveryState := fun _ => ⟨rfl, rfl⟩

/-- Settles O17: the state RESET answers is `State.reset` but for what it carries over, and both frames are the blank
one. -/
theorem resetOperationRestoresResetValues : Obligations.ResetOperationRestoresResetValues := fun _ =>
  ⟨_, rfl, rfl, rfl, rfl, rfl, rfl, rfl, rfl, rfl, rfl, rfl, rfl, rfl, rfl,
    fun x y => ⟨blank_pixel x y, blank_pixel x y⟩, rfl, rfl, rfl, rfl, rfl⟩

/-! ## The fault event and the inactive engine -/

theorem envStep_of_active {s : State} (hv : s.cfgValid = true) (hr : s.run = .running ∨ s.run = .stopping)
    (cause : Nat) :
    envStep cause s = .next { drive s.lines.oed s with run := .faulted, err := ⟨3, cause, 0, 0⟩ } := by
  have hactive : engineActive s = true := by simpa [engineActive] using hr
  rw [envStep, if_pos hactive, faultEntry, driveLines_of_valid hv]
  rfl

/-- Settles O40: the fault entry is one bus write of the lines with oe = 1. -/
theorem faultForcesOutputDisabled : Obligations.FaultForcesOutputDisabled := by
  intro s cause later hc hr hs
  have hstep : step s = envStep cause { s with schedule := later } := step_of_schedule_cons hs
  obtain ⟨b, hshows, hdrive⟩ := drivenTo_drive hc s.lines.oed
  have hbus : (drive s.lines.oed s).bus = b := by rw [hdrive]
  refine ⟨b, hshows, ?_⟩
  rw [hstep, envStep_of_active (s := { s with schedule := later }) hc.1 hr, ← hbus]
  rfl

theorem tick_of_inactive {s : State} (hr : s.run = .idle ∨ s.run = .faulted) : tick s = .next s := by
  rcases hr with hr | hr <;> simp only [tick, hr]

theorem envStep_of_inactive {s : State} (hr : s.run = .idle ∨ s.run = .faulted) (cause : Nat) :
    envStep cause s = .next s := by
  have hinactive : engineActive s = false := by rcases hr with hr | hr <;> simp [engineActive, hr]
  simp [envStep, hinactive]

/-- Settles O41: the step is the tick or the fault event of an engine that is not active. -/
theorem inactiveEngineHasNoStep : Obligations.InactiveEngineHasNoStep := by
  intro s later hr
  refine ⟨fun hs => ?tick, fun cause hs => ?fault⟩
  case tick => exact (step_of_schedule_cons hs).trans (tick_of_inactive (s := { s with schedule := later }) hr)
  case fault =>
    exact (step_of_schedule_cons hs).trans (envStep_of_inactive (s := { s with schedule := later }) hr cause)

/-! ## The stop sequence -/

section Stop

variable {s : State} {later : List AgentStep}

/-- At a row start a running engine obeys STOPREQ: OED's word, and STOPPING (R237). -/
theorem tickRunning_of_stop (hv : s.cfgValid = true) (hstop : s.stopreq = true) (hrow : s.seq.isRowStart = true) :
    tickRunning s = .next (setRun .stopping (drive s.lines.oed s)) := by
  have hexec : exec .oed s = .next (drive s.lines.oed s) := driveLines_of_valid hv
  rw [tickRunning, if_pos hv, if_pos (Bool.and_eq_true_iff.mpr ⟨hrow, hstop⟩), hexec, thenDo_next]

/-- The tick of a STOPPING engine: the idle word, and IDLE (R242). -/
theorem tick_of_stopping (hv : s.cfgValid = true) (hr : s.run = .stopping) :
    tick s = .next (setRun .idle (drive Lines.g0 s)) := by
  have hexec : exec .idle s = .next (drive Lines.g0 s) := driveLines_of_valid hv
  simp only [tick, hr, hexec, thenDo_next]

theorem step_of_stop (hv : s.cfgValid = true) (hr : s.run = .running) (hstop : s.stopreq = true)
    (hrow : s.seq.isRowStart = true) (hs : s.schedule = .tick :: later) :
    step s = .next { drive s.lines.oed s with run := .stopping, schedule := later } :=
  (step_of_tick_running hs hr).trans (tickRunning_of_stop (s := { s with schedule := later }) hv hstop hrow)

theorem step_of_stopping (hv : s.cfgValid = true) (hr : s.run = .stopping) (hs : s.schedule = .tick :: later) :
    step s = .next { drive Lines.g0 s with run := .idle, schedule := later } :=
  (step_of_schedule_cons hs).trans (tick_of_stopping (s := { s with schedule := later }) hv hr)

/-- The two ticks of the stop sequence, and what is run after them (R242). -/
theorem run_stop_sequence (hv : s.cfgValid = true) (hr : s.run = .running) (hstop : s.stopreq = true)
    (hrow : s.seq.isRowStart = true) (hs : s.schedule = .tick :: .tick :: later) (k : Nat) :
    Host.Core.run core (k + 2) s =
      Host.Core.run core k { drive Lines.g0 (drive s.lines.oed s) with run := .idle, schedule := later } :=
  (run_succ (step_of_stop hv hr hstop hrow hs) (k + 1)).trans
    (run_succ (step_of_stopping
      (s := { drive s.lines.oed s with run := .stopping, schedule := .tick :: later }) hv rfl rfl) k)

end Stop

/-- Settles O39: two bus writes, and a bus write shows its line state on the 14 positions. -/
theorem stopSequenceIsTwoTicks : Obligations.StopSequenceIsTwoTicks := by
  intro s later hc hr hstop hrow hs
  obtain ⟨b, hshows, hdrive⟩ := drivenTo_drive hc s.lines.oed
  obtain ⟨b', hshows', hdrive'⟩ := drivenTo_drive (s := drive s.lines.oed s) hc Lines.g0
  have hrun := run_stop_sequence hc.1 hr hstop hrow hs 0
  rw [hdrive'] at hrun
  rw [hdrive] at hrun hshows'
  refine ⟨b, b', hshows, hshows', ?_, hrun⟩
  rw [step_of_stop hc.1 hr hstop hrow hs, hdrive]
  rfl

/-! ## The ticks of the two strategies, in terms of the micro-operation they execute -/

/-- What follows a meaning matters at the state it answers alone. -/
theorem thenDo_congr {o : Answer} {f g : State → State} (h : ∀ u, o = .next u → f u = g u) :
    thenDo o f = thenDo o g := by
  cases o with
  | next u => simp only [thenDo_next, h u rfl]
  | fault r => rfl
  | refused r => rfl

/-- A micro-operation other than HOLD, and then the next position: the configuration is the one before it. -/
theorem thenDo_exec_advance {i : Instr} {s : State} (hm : i.isMicro = true) (hh : ∀ k, i ≠ .hold k)
    (advance : Cfg → Position → Position) :
    thenDo (exec i s) (fun t => { t with seq := advance t.cfg t.seq }) =
      thenDo (exec i s) (fun t => { t with seq := advance s.cfg s.seq }) :=
  thenDo_congr fun u hu => by
    obtain ⟨-, rfl⟩ := exec_micro_eq_next hm hh hu
    rfl

/-- What the swap of a Timeline tick leaves alone, and ACT where there is none (R238). -/
theorem adopt_at_cycleStart_frame (s : State) :
    let swapped := if s.seq.isCycleStart s.cfg.depth then adopt s else s
    SameSetup s swapped ∧ swapped.seq = s.seq ∧ swapped.bus = s.bus ∧ swapped.trace = s.trace ∧
      (s.seq.isCycleStart s.cfg.depth = false → SameAct s swapped) := by
  cases hc : s.seq.isCycleStart s.cfg.depth with
  | true => exact ⟨sameSetup_adopt s, adopt_seq s, adopt_bus s, adopt_trace s, nofun⟩
  | false => exact ⟨sameSetup_refl s, rfl, rfl, rfl, fun _ => ⟨rfl, rfl⟩⟩

section RunningTick

variable {s : State}

/-- Where there is no stop to obey, the tick of a running engine is its strategy's (R235, R237). -/
theorem tickRunning_of_no_stop (hv : s.cfgValid = true) (hl : s.seq.legal s.cfg = true)
    (hgo : s.seq.isRowStart = true → s.stopreq = false) :
    (s.cfg.strategy = .timeline → tickRunning s = tickTimeline s) ∧
      (s.cfg.strategy = .direct → tickRunning s = tickDirect s) := by
  have hno : ¬ (s.seq.isRowStart && s.stopreq) = true := by
    intro hboth
    obtain ⟨hrow, hset⟩ := Bool.and_eq_true_iff.mp hboth
    exact absurd ((hgo hrow).symm.trans hset) (by decide)
  rw [tickRunning, if_pos hv, if_neg hno, if_pos hl]
  exact ⟨fun ht => by simp only [ht], fun ht => by simp only [ht]⟩

/-- TickTimeline: the swap at the cycle start, the micro-operation on the line state before the position, Next (R236). -/
theorem tickTimeline_exec (hq : ∀ p n r q h, s.seq = .body p n r q h → q.val ≠ 198) :
    let swapped := if s.seq.isCycleStart s.cfg.depth then adopt s else s
    tickTimeline s =
      thenDo (exec s.seq.microOp { swapped with lines := lineBefore s.light s.cfg swapped.actFrame s.seq })
        fun t => { t with seq := nextTimeline s.cfg.depth s.seq } := by
  intro swapped
  obtain ⟨hsetup, hseq, -⟩ := adopt_at_cycleStart_frame s
  show thenDo (exec swapped.seq.microOp
    { swapped with lines := lineBefore swapped.light swapped.cfg swapped.actFrame swapped.seq }) _ = _
  simp only [swapped, hseq, hsetup.cfg, hsetup.light]
  exact thenDo_exec_advance (microOp_micro s.seq) (microOp_not_hold s.seq hq) fun cfg pos => nextTimeline cfg.depth pos

/-- TickDirect at End (R243). -/
theorem tickDirect_of_endCycle (hseq : s.seq = .endCycle) :
    tickDirect s = thenDo (exec .endCycle s) fun t => { t with seq := cycleStart s.cfg.depth } := by
  simp only [tickDirect, hseq]
  exact thenDo_exec_advance (i := .endCycle) rfl nofun fun cfg _ => cycleStart cfg.depth

variable {p : Fin 8} {n : Fin 128} {r : Fin 32} {q : Fin 199} {h : Nat}

/-- TickDirect in the hold phase (R243). -/
theorem tickDirect_of_hold_phase (hseq : s.seq = .body p n r q h) (hq : q.val = 198) :
    tickDirect s = exec (.hold h) s := by
  simp only [tickDirect, hseq, if_pos hq]

/-- TickDirect at the other positions: the snapshot at a row start, G0 at the cycle start, the micro-operation, and the
next phase (R243, R244). -/
theorem tickDirect_exec (hseq : s.seq = .body p n r q h) (hq : q.val ≠ 198) :
    let acquired := if q.val = 0 then acquire s else s
    let fetched :=
      if (Position.body p n r q h).isCycleStart s.cfg.depth then { acquired with lines := Lines.g0 } else acquired
    tickDirect s =
      thenDo (exec (Position.body p n r q h).microOp fetched) fun t => { t with seq := nextDirect s.cfg p r q } := by
  intro acquired fetched
  have hacquired : SameSetup s acquired := sameSetup_ite _ (sameSetup_acquire s)
  have hcfg : fetched.cfg = s.cfg := by
    show (ite _ _ _ : State).cfg = s.cfg
    split <;> exact hacquired.cfg
  simp only [tickDirect, hseq]
  rw [if_neg hq]
  show thenDo (exec (Position.body p n r q h).microOp fetched) _ = _
  rw [← hcfg]
  refine thenDo_exec_advance (microOp_micro _) (microOp_not_hold _ ?_) fun cfg _ => nextDirect cfg p r q
  rintro _ _ _ _ _ ⟨⟩
  exact hq

/-- The snapshot of a row start, written out (R244). -/
theorem acquire_at_rowStart (s : State) (q : Fin 199) :
    (if q.val = 0 then acquire s else s) =
      if q.val = 0 ∧ s.fbBusy = false then { s with actFrame := s.fbFrame, actGen := s.fbGen } else s := by
  cases hb : s.fbBusy with
  | true => simp [acquire, hb]
  | false => simp [acquire, hb]

/-- A reachable Direct position is the cycle start by its plane, row and phase (R24). -/
theorem isCycleStart_direct {cfg : Cfg} (ht : cfg.strategy = .direct) (hl : (Position.body p n r q h).legal cfg = true) :
    (Position.body p n r q h).isCycleStart cfg.depth = true ↔ p.val + 1 = cfg.depth ∧ r.val = 0 ∧ q.val = 0 := by
  simp only [Position.legal, ht, Bool.and_eq_true, beq_iff_eq] at hl
  obtain ⟨-, rfl⟩ := hl
  simp only [Position.isCycleStart, beq_self_eq_true, Bool.and_true, Bool.and_eq_true, beq_iff_eq, Fin.ext_iff,
    Fin.val_zero, and_assoc]

end RunningTick

/-! ## One step of a running engine with no stop to obey -/

section RunningStep

variable {s : State} {later : List AgentStep} (hs : s.schedule = .tick :: later) (hr : s.run = .running)
  (hv : s.cfgValid = true) (hl : s.seq.legal s.cfg = true) (hgo : s.seq.isRowStart = true → s.stopreq = false)
include hs hr hv hl hgo

theorem step_of_tick_timeline (ht : s.cfg.strategy = .timeline) :
    step s = tickTimeline { s with schedule := later } :=
  (step_of_tick_running hs hr).trans ((tickRunning_of_no_stop (s := { s with schedule := later }) hv hl hgo).1 ht)

theorem step_of_tick_direct (ht : s.cfg.strategy = .direct) : step s = tickDirect { s with schedule := later } :=
  (step_of_tick_running hs hr).trans ((tickRunning_of_no_stop (s := { s with schedule := later }) hv hl hgo).2 ht)

end RunningStep

/-- Settles O37: the tick is the Timeline's, and no Timeline position is in a hold. -/
theorem stepRunsTimelineMicroOperation : Obligations.StepRunsTimelineMicroOperation := by
  intro s later hc ht hr hs hl hgo swapped fetched
  rw [step_of_tick_timeline hs hr hc.1 hl hgo ht,
    tickTimeline_exec (s := { s with schedule := later }) (not_hold_of_timeline ht hl)]
  show thenDo (exec s.seq.microOp fetched) _ = _
  cases exec s.seq.microOp fetched <;> rfl

/-- Settles O38: End, the hold phase, and the other positions are the three branches of the Direct tick. -/
theorem stepRunsDirectMicroOperation : Obligations.StepRunsDirectMicroOperation := by
  intro s later hc ht hr hs hl hgo
  rw [step_of_tick_direct hs hr hc.1 hl hgo ht]
  split
  · next hseq =>
    rw [tickDirect_of_endCycle (s := { s with schedule := later }) hseq]
    cases exec .endCycle { s with schedule := later } <;> rfl
  · next p n r q h hseq =>
    rw [hseq] at hl
    refine ⟨fun hq => tickDirect_of_hold_phase (s := { s with schedule := later }) hseq hq, fun hq => ?_⟩
    intro acquired fetched advanced
    rw [tickDirect_exec (s := { s with schedule := later }) hseq (by omega)]
    simp only [acquire_at_rowStart, isCycleStart_direct ht hl]
    show thenDo (exec (Position.body p n r q h).microOp fetched) _ = _
    cases exec (Position.body p n r q h).microOp fetched <;> rfl

/-! ## The stored word of the Timeline -/

/-- The word of a position is the packed line state of R181 (R180). -/
theorem getElem?_timeline (light : Table) (F : Frame) {cfg : Cfg} (ht : cfg.strategy = .timeline) (hD : 5 ≤ cfg.depth)
    (hD8 : cfg.depth ≤ 8) {pos : Position} (hl : pos.legal cfg = true) :
    (timeline light cfg F)[pos.idx cfg.depth]? = some (pack cfg.pins (lineAt light cfg F pos)) := by
  rw [timeline, List.getElem?_map, getElem?_lineStates light F ht hD hD8 hl, Option.map_some]

/-- Settles O46: the tick drives the line state of its position, whose packed word the Timeline holds there, and Unpack
reads it back. -/
theorem timelineTickReplaysStoredWord : Obligations.TimelineTickReplaysStoredWord := by
  intro s later hc ht hr hs hl hgo
  have hstep := step_of_tick_timeline hs hr hc.1 hl hgo ht
  rw [tickTimeline_eq (s := { s with schedule := later }) hc ht hl] at hstep
  obtain ⟨hsetup, -, hbus, htrace, hsame⟩ := adopt_at_cycleStart_frame { s with schedule := later }
  obtain ⟨-, ⟨-, hp, hD, hD8, -⟩, -⟩ := hc
  refine ⟨_, _, hstep, getElem?_timeline s.light _ ht hD hD8 hl, ?bus, ?lines, rfl, ?trace, hsame⟩
  case bus =>
    show maskedWrite _ (pack (State.cfg _).pins _) (State.masks _).driven = _
    rw [hbus, hsetup.cfg, hsetup.masks]
    rfl
  case lines => exact (unpack_of_bits (pack_testBit_pos hp _)).symm
  case trace => exact congrArg (_ :: ·) htrace

/-! ## How many ticks a stop takes -/

/-- Where a tick of a running engine leads that has no stop to obey: Next in each strategy (R239, R243, R246). -/
def nextPosition (cfg : Cfg) (pos : Position) : Position :=
  match cfg.strategy, pos with
  | .timeline, pos => nextTimeline cfg.depth pos
  | .direct, .endCycle => cycleStart cfg.depth
  | .direct, .body p n r q h =>
    if q.val = 198 then if 1 < h then .body p n r 198 (h - 1) else nextRow p r else nextDirect cfg p r q

/-- t is s after a tick that moves the engine to a position and does not stop it. -/
structure MovedTo (s : State) (pos : Position) (t : State) : Prop where
  seq : t.seq = pos
  cfg : t.cfg = s.cfg
  run : t.run = s.run
  stopreq : t.stopreq = s.stopreq
  schedule : t.schedule = s.schedule

theorem movedTo_drive {s s1 : State} (hs1 : s1 = adopt s ∨ s1 = acquire s ∨ s1 = s) (L : Lines) (pos : Position) :
    MovedTo s pos { drive L s1 with seq := pos } := by
  rcases hs1 with rfl | rfl | rfl
  · exact ⟨rfl, adopt_cfg s, adopt_run s, adopt_stopreq s, adopt_schedule s⟩
  · exact ⟨rfl, acquire_cfg s, acquire_run s, acquire_stopreq s, acquire_schedule s⟩
  · exact ⟨rfl, rfl, rfl, rfl, rfl⟩

theorem tickDirect_moves {s : State} (h : Inv s) (hr : s.run = .running) (ht : s.cfg.strategy = .direct) :
    ∃ t, tickDirect s = .next t ∧ MovedTo s (nextPosition s.cfg s.seq) t := by
  have hv := h.active_configured (by simp [hr])
  have hc := h.configured hv
  cases hseq : s.seq with
  | endCycle =>
    refine ⟨_, tickDirect_eq h hr hc ht (by simp [hseq]), ?_⟩
    simp only [hseq, nextPosition, ht]
    exact movedTo_drive (.inr (ite_eq_or_eq _ _ _)) _ _
  | body p n r q k =>
    by_cases hq : q.val = 198
    · refine ⟨_, tickDirect_hold hv p n r q k hseq hq, ?_, rfl, rfl, rfl, rfl⟩
      simp only [nextPosition, ht, if_pos hq]
    · refine ⟨_, tickDirect_eq h hr hc ht (by rintro p n r q k he; cases hseq.symm.trans he; exact hq), ?_⟩
      simp only [hseq, nextPosition, ht, if_neg hq]
      exact movedTo_drive (.inr (ite_eq_or_eq _ _ _)) _ _

theorem tickRunning_moves {s : State} (h : Inv s) (hr : s.run = .running)
    (hgo : s.seq.isRowStart = true → s.stopreq = false) :
    ∃ t, tickRunning s = .next t ∧ MovedTo s (nextPosition s.cfg s.seq) t := by
  have hv := h.active_configured (by simp [hr])
  obtain ⟨hl, -⟩ := h.running_position hr
  obtain ⟨htimeline, hdirect⟩ := tickRunning_of_no_stop hv hl hgo
  cases ht : s.cfg.strategy with
  | timeline =>
    have hpos : nextPosition s.cfg s.seq = nextTimeline s.cfg.depth s.seq := by simp only [nextPosition, ht]
    rw [hpos, htimeline ht]
    exact ⟨_, tickTimeline_eq (h.configured hv) ht hl, movedTo_drive ((ite_eq_or_eq _ _ _).imp_right .inr) _ _⟩
  | direct =>
    rw [hdirect ht]
    exact tickDirect_moves h hr ht

/-- The hold ticks of a row of plane p: DWELL(p) in Direct mode (R247). -/
def rowHold (cfg : Cfg) (p : Fin 8) : Nat :=
  match cfg.strategy with
  | .timeline => 0
  | .direct => dwell cfg p

/-- A bound on the ticks from a position to IDLE once STOPREQ is set: the stop sequence at a row start, with END before it
at End; the rest of the hold, and the rest of the row with its hold, before END (R237). -/
def stopTicks (cfg : Cfg) : Position → Nat
  | .endCycle => 3
  | .body p _ _ q h => if q.val = 0 then 2 else if q.val = 198 then h + 3 else 198 - q.val + rowHold cfg p + 3

theorem stopTicks_of_rowStart (cfg : Cfg) {pos : Position} (hrow : pos.isRowStart = true) : stopTicks cfg pos = 2 := by
  cases pos with
  | endCycle => cases hrow
  | body p n r q h =>
    obtain rfl : q = 0 := by simpa [Position.isRowStart] using hrow
    rfl

theorem stopTicks_nextRow (cfg : Cfg) (p : Fin 8) (r : Fin 32) : stopTicks cfg (nextRow p r) ≤ 3 := by
  unfold nextRow
  split_ifs <;> simp [stopTicks]

/-- The next phase of a row, up to OEE, is one tick nearer. -/
theorem stopTicks_next_phase (cfg : Cfg) (p : Fin 8) (n : Fin 128) (r : Fin 32) {q : Fin 199} (h : Nat)
    (hq0 : q.val ≠ 0) (hq : q.val < 197) :
    stopTicks cfg (.body p n r (q + 1) 0) < stopTicks cfg (.body p n r q h) := by
  simp only [stopTicks, fin_add_one_val q (by omega)]
  split_ifs <;> omega

theorem stopTicks_nextTimeline {cfg : Cfg} (ht : cfg.strategy = .timeline) {pos : Position}
    (hl : pos.legal cfg = true) (hrow : pos.isRowStart = false) :
    stopTicks cfg (nextTimeline cfg.depth pos) < stopTicks cfg pos := by
  cases pos with
  | endCycle => exact Nat.lt_add_one 2
  | body p n r q h =>
    obtain ⟨-, -, hq⟩ := (legal_timeline_body ht).mp hl
    have hq0 : q.val ≠ 0 := fun h0 => by simp [Position.isRowStart, show q = 0 from Fin.ext h0] at hrow
    by_cases hlt : q.val < 197
    · rw [nextTimeline, if_pos hlt]
      exact stopTicks_next_phase cfg p n r h hq0 hlt
    · have hnext : stopTicks cfg (nextTimeline cfg.depth (.body p n r q h)) ≤ 3 := by
        rw [nextTimeline, if_neg hlt]
        split_ifs <;> simp [stopTicks]
      have hthis : 3 < stopTicks cfg (.body p n r q h) := by
        rw [stopTicks, if_neg hq0, if_neg (by omega)]
        omega
      omega

theorem stopTicks_nextDirect {cfg : Cfg} (ht : cfg.strategy = .direct) {p : Fin 8} {n : Fin 128} {r : Fin 32}
    {q : Fin 199} {h : Nat} (hq0 : q.val ≠ 0) (hq : q.val ≠ 198) :
    stopTicks cfg (nextDirect cfg p r q) < stopTicks cfg (.body p n r q h) := by
  by_cases hlt : q.val < 197
  · rw [nextDirect, if_pos hlt]
    exact stopTicks_next_phase cfg p 0 r h hq0 hlt
  · have hthis : stopTicks cfg (.body p n r q h) = 1 + dwell cfg p + 3 := by
      simp only [stopTicks, if_neg hq0, if_neg hq, rowHold, ht]
      omega
    have hrow := stopTicks_nextRow cfg p r
    rw [nextDirect, if_neg hlt, hthis]
    split
    · show dwell cfg p + 3 < _
      omega
    · omega

/-- Off a row start every tick comes nearer to IDLE. -/
theorem stopTicks_nextPosition {cfg : Cfg} {pos : Position} (hl : pos.legal cfg = true) (hh : HoldFits cfg pos)
    (hrow : pos.isRowStart = false) : stopTicks cfg (nextPosition cfg pos) < stopTicks cfg pos := by
  cases ht : cfg.strategy with
  | timeline =>
    simp only [nextPosition, ht]
    exact stopTicks_nextTimeline ht hl hrow
  | direct =>
    cases pos with
    | endCycle =>
      simp only [nextPosition, ht]
      exact Nat.lt_add_one 2
    | body p n r q h =>
      simp only [nextPosition, ht]
      have hq0 : q.val ≠ 0 := fun h0 => by simp [Position.isRowStart, show q = 0 from Fin.ext h0] at hrow
      by_cases hq : q.val = 198
      · have hthis : stopTicks cfg (.body p n r q h) = h + 3 := by rw [stopTicks, if_neg hq0, if_pos hq]
        obtain ⟨hpos, -⟩ := hh hq
        have hnext := stopTicks_nextRow cfg p r
        rw [if_pos hq, hthis]
        split
        · show h - 1 + 3 < _
          omega
        · omega
      · rw [if_neg hq]
        exact stopTicks_nextDirect ht hq0 hq

/-- The bound of R237. -/
theorem stopTicks_le {s : State} (hl : s.seq.legal s.cfg = true) (hh : HoldFits s.cfg s.seq) :
    stopTicks s.cfg s.seq ≤ 200 + holdBound s := by
  cases hseq : s.seq with
  | endCycle => simp only [stopTicks]; omega
  | body p n r q h =>
    rw [hseq] at hl hh
    have hhold : rowHold s.cfg p = holdBound s := by
      cases ht : s.cfg.strategy <;> simp only [rowHold, holdBound, ht, hseq]
    rw [← hhold]
    simp only [stopTicks]
    split_ifs with hq0 hq
    · omega
    · obtain ⟨-, hle⟩ := hh hq
      cases ht : s.cfg.strategy with
      | timeline => exact absurd hq (not_hold_of_timeline ht hl p n r q h rfl)
      | direct => simp only [rowHold, ht]; omega
    · omega

/-- Ticks change nothing in IDLE (R230). -/
theorem run_idle (k : Nat) {s : State} {later : List AgentStep} (hr : s.run = .idle)
    (hs : s.schedule = ticks k ++ later) : Host.Core.run core k s = .next { s with schedule := later } := by
  induction k generalizing s with
  | zero =>
    obtain rfl : s.schedule = later := hs
    rfl
  | succ k ih =>
    have hstep := (inactiveEngineHasNoStep s (ticks k ++ later) (.inl hr)).1 hs
    exact (run_succ hstep k).trans (ih (s := { s with schedule := ticks k ++ later }) hr rfl)

/-- A running engine that has been asked to stop. -/
structure AskedToStop (s : State) : Prop where
  inv : Inv s
  run : s.run = .running
  stopreq : s.stopreq = true

/-- Off a row start the tick goes on towards one. -/
theorem step_of_askedToStop {s : State} {later : List AgentStep} (h : AskedToStop s)
    (hrow : s.seq.isRowStart = false) (hs : s.schedule = .tick :: later) :
    ∃ u, step s = .next u ∧ AskedToStop u ∧ stopTicks u.cfg u.seq < stopTicks s.cfg s.seq ∧ u.schedule = later := by
  obtain ⟨hl, hh⟩ := h.inv.running_position h.run
  obtain ⟨u, htick, hu⟩ := tickRunning_moves (inv_schedule h.inv later) h.run (by simp [hrow])
  have hstep : step s = .next u := (step_of_tick_running hs h.run).trans htick
  refine ⟨u, hstep, ⟨invariantKeptByStep _ _ h.inv hstep, hu.run.trans h.run, hu.stopreq.trans h.stopreq⟩, ?_,
    hu.schedule⟩
  rw [hu.cfg, hu.seq]
  exact stopTicks_nextPosition hl hh hrow

/-- As many ticks as `stopTicks` says, or more, end in IDLE. -/
theorem reaches_idle {s : State} {later : List AgentStep} {k : Nat} (h : AskedToStop s)
    (hk : stopTicks s.cfg s.seq ≤ k) (hs : s.schedule = ticks k ++ later) :
    ∃ t, Host.Core.run core k s = .next t ∧ t.run = .idle ∧ t.lines = Lines.g0 ∧ t.schedule = later := by
  cases hrow : s.seq.isRowStart with
  | true =>
    rw [stopTicks_of_rowStart s.cfg hrow] at hk
    obtain ⟨j, rfl⟩ := Nat.exists_eq_add_of_le' hk
    have hv := h.inv.active_configured (by simp [h.run])
    exact ⟨_, (run_stop_sequence hv h.run h.stopreq hrow hs j).trans (run_idle j rfl rfl), rfl, rfl, rfl⟩
  | false =>
    cases k with
    | zero =>
      obtain ⟨hl, hh⟩ := h.inv.running_position h.run
      have hnear := stopTicks_nextPosition hl hh hrow
      omega
    | succ j =>
      obtain ⟨u, hstep, hu, hnear, hs'⟩ := step_of_askedToStop h hrow hs
      obtain ⟨t, hrun, hidle⟩ := reaches_idle (k := j) hu (by omega) hs'
      exact ⟨t, (run_succ hstep j).trans hrun, hidle⟩

/-- Settles O57: every tick off a row start comes nearer to the stop sequence, and the bound holds from every reachable
position. -/
theorem stopReachesIdle : Obligations.StopReachesIdle := by
  intro s later h hr hstop hs
  obtain ⟨hl, hh⟩ := h.running_position hr
  exact reaches_idle ⟨h, hr, hstop⟩ (stopTicks_le hl hh) hs

end Sys2Proof.Proofs

/-! PROOFS. The family of 70_reset_and_hazards.md: the output is disabled around every latch and address change (R303),
and the bits of BUS that are not the block's stand (R306, R309). -/

namespace Sys2Proof.Proofs

open Sys2Proof Sys2Proof.Machine

/-! ## Output disable around the latch and the address -/

/-- The latch line or an address line differs. -/
def MovesLatchOrAddress (L M : Lines) : Prop := M.lat ≠ L.lat ∨ M.addr ≠ L.addr

theorem not_movesLatchOrAddress {L M : Lines} (hlat : M.lat = L.lat) (haddr : M.addr = L.addr) :
    ¬ MovesLatchOrAddress L M := not_or.mpr ⟨not_not.mpr hlat, not_not.mpr haddr⟩

/-- Of the micro-operations other than IDLE, LTL, LTH and ADR alone move the latch or the address (R206 to R208). -/
theorem op_of_movesLatchOrAddress {e : Fin 64 → Entry} {op : Instr} {L : Lines} (hi : op ≠ .idle)
    (hmove : MovesLatchOrAddress L (apply e op L)) : op = .ltl ∨ op = .lth ∨ ∃ r, op = .adr r := by
  cases op with
  | ltl => exact .inl rfl
  | lth => exact .inr (.inl rfl)
  | adr r => exact .inr (.inr ⟨r, rfl⟩)
  | idle => exact absurd rfl hi
  | _ => exact absurd hmove (not_movesLatchOrAddress rfl rfl)

/-- R97: they stand at the phases 194, 195 and 196. -/
theorem phase_of_latch_or_address {r : Fin 32} {q : Fin 199} {h : Nat}
    (hop : phaseDecode r q h = .ltl ∨ phaseDecode r q h = .lth ∨ ∃ r', phaseDecode r q h = .adr r') :
    194 ≤ q.val ∧ q.val ≤ 196 := by
  by_contra hq
  unfold phaseDecode at hop
  split at hop
  · simp at hop
  · split at hop
    · split at hop <;> simp at hop
    · split at hop
      · simp at hop
      · omega
      · omega
      · omega
      · simp at hop
      · simp at hop

/-- R181: before LTL, LTH and ADR the output is disabled, by the OED word of phase 193. -/
theorem lineBefore_oe_in_window (light : Table) (cfg : Cfg) (F : Frame) {p n r} {q : Fin 199} {h}
    (hq : 194 ≤ q.val) (hq' : q.val ≤ 196) : (lineBefore light cfg F (.body p n r q h)).oe = true := by
  have hprev : (q - 1).val = q.val - 1 := fin_sub_one_val q (by omega)
  simp only [lineBefore, Position.prev, if_pos (show 0 < q.val by omega)]
  exact (lineAt_oe_body light cfg F p n r (q - 1) 0).mpr (.inl (by omega))

/-- A step that moves the latch or the address finds the output disabled: the program's by the closed form of R181, the
cycle-start and the idle word by the invariant. -/
theorem oe_before_latch_or_address {s : State} {L : Lines} (h : Inv s) (heffect : LinesEffect s L)
    (hmove : MovesLatchOrAddress s.lines L) : s.lines.oe = true := by
  cases heffect with
  | keeps => exact absurd hmove (not_movesLatchOrAddress rfl rfl)
  | disables => exact absurd hmove (not_movesLatchOrAddress rfl rfl)
  | rests hrest => exact (lines_of_takesRestWord h hrest).2.2
  | programs e hr hc =>
    have hop := op_of_movesLatchOrAddress (microOp_ne_idle s.seq) hmove
    rw [lines_of_linesFit (h.running_lines hr) (Bool.eq_false_iff.mpr hc)]
    cases hseq : s.seq with
    | endCycle => simp [hseq, Position.microOp] at hop
    | body p n r q k =>
      rw [hseq] at hop
      obtain ⟨hq, hq'⟩ := phase_of_latch_or_address hop
      exact lineBefore_oe_in_window _ _ _ hq hq'

/-- Of one changed group at the most, where it is the output enable, no other line changes. -/
theorem eq_of_oe_ne {L M : Lines} (h : changedGroups L M ≤ 1) (hoe : M.oe ≠ L.oe) : M = { L with oe := M.oe } := by
  obtain ⟨rgb, addr, clk, lat, oe⟩ := M
  have hd : (L.oe != oe) = true := bne_iff_ne.mpr hoe.symm
  simp only [changedGroups_eq, hd, Bool.toNat_true] at h
  have hsame {α : Type} [BEq α] [LawfulBEq α] {a b : α} (hab : (a != b).toNat = 0) : b = a :=
    (bne_eq_false_iff_eq.mp (Bool.toNat_eq_zero.mp hab)).symm
  simp only [Lines.mk.injEq, and_true]
  exact ⟨hsame (by omega), hsame (by omega), hsame (by omega), hsame (by omega)⟩

/-- Settles O48: a rest word leaves the output disabled; elsewhere one line group changes, so a word that moves the
latch or the address leaves the output as it finds it, and a word that enables the output moves nothing else. -/
theorem outputDisableBracketsLatchAndAddress : Obligations.OutputDisableBracketsLatchAndAddress := by
  intro s t h hstep hv hv'
  have heffect := step_linesEffect h hstep hv hv'
  have hbefore := oe_before_latch_or_address h heffect
  by_cases hrest : TakesRestWord s
  · obtain ⟨-, -, hoe⟩ := linesEffect_of_takesRestWord h hrest heffect
    refine ⟨fun hmove => ⟨hbefore hmove, hoe.trans (hbefore hmove)⟩, fun hon hoff => ?_⟩
    cases hoff.symm.trans (hoe.trans hon)
  · have hone := changedGroups_of_linesEffect heffect hrest
    refine ⟨fun hmove => ⟨hbefore hmove, ?_⟩, fun hon hoff => ?_⟩
    · by_contra hoff
      have heq := eq_of_oe_ne hone (by rwa [hbefore hmove])
      exact not_movesLatchOrAddress (by rw [heq]) (by rw [heq]) hmove
    · rw [← hoff]
      exact eq_of_oe_ne hone (by simp [hon, hoff])

/-! ## Who writes which bits of BUS -/

/-- What a step of the core, of HOST or of ENV does to BUS: it leaves it (and the frozen bits of an unconfigured block),
it writes the driven bits of a configured block, or it is a CONFIGURE that writes the bits of the masks it installs. -/
inductive BusEffect (s t : State) : Prop where
  | keeps : t.bus = s.bus → (s.cfgValid = false → t.frozen = s.frozen) → BusEffect s t
  | drives (w : BusWord) : s.cfgValid = true → t.bus = maskedWrite s.bus w s.masks.driven → BusEffect s t
  | configures (w : BusWord) : s.cfgValid = false → t.cfgValid = true →
      t.bus = maskedWrite s.bus w t.masks.driven → BusEffect s t

/-- It does not depend on what is scheduled or waits. -/
theorem busEffect_of_queues {s t : State} {later : List AgentStep} {l : List Instr}
    (h : BusEffect { s with schedule := later, waiting := l } t) : BusEffect s t := by
  cases h with
  | keeps hbus hfrozen => exact .keeps hbus hfrozen
  | drives w hv hbus => exact .drives w hv hbus
  | configures w hv hv' hbus => exact .configures w hv hv' hbus

theorem hostEffect_busEffect {op : Instr} {s t : State} (h : HostEffect op s t) : BusEffect s t := by
  cases h with
  | accepts cfg hn _ => exact .configures _ hn rfl rfl
  | publishes F u hu _ _ => rcases hu with ⟨rfl, -⟩ | rfl <;> exact .keeps rfl fun _ => rfl
  | replaces F u hu _ _ => rcases hu with ⟨rfl, -⟩ | rfl <;> exact .keeps rfl fun _ => rfl
  | resets _ => exact .keeps rfl heldBits_of_invalid
  | _ => exact .keeps rfl fun _ => rfl

theorem exec_busEffect {i : Instr} {s t : State} (h : exec i s = .next t) : BusEffect s t := by
  cases hm : i.isMicro with
  | false => exact hostEffect_busEffect (exec_host_effect hm h)
  | true =>
    by_cases hh : ∃ k, i = .hold k
    · obtain ⟨k, rfl⟩ := hh
      obtain ⟨-, p, n, r, q, k', -, rfl⟩ := execHold_eq_next h
      exact .keeps rfl fun _ => rfl
    · obtain ⟨hv, rfl⟩ := exec_micro_eq_next hm (fun k hk => hh ⟨k, hk⟩) h
      exact .drives _ hv rfl

/-- An unconfigured block's tick answers a next state in IDLE and FAULTED only, where it does nothing (R40, R230). -/
theorem tick_of_unconfigured {s t : State} (hv : s.cfgValid = false) (h : tick s = .next t) : t = s := by
  unfold tick at h
  split at h
  · cases h; rfl
  · simp [tickRunning, hv] at h
  · obtain ⟨u, hu, -⟩ := thenDo_eq_next h
    cases (driveLines_of_invalid hv Lines.g0).symm.trans hu
  · cases h; rfl

theorem tick_busEffect {s t : State} (h : tick s = .next t) : BusEffect s t := by
  cases hv : s.cfgValid with
  | false =>
    cases tick_of_unconfigured hv h
    exact .keeps rfl fun _ => rfl
  | true =>
    cases tick_effect h with
    | rests => exact .keeps rfl fun _ => rfl
    | drives L run pos => exact .drives _ hv rfl
    | swaps s1 L pos _ hsw =>
      rw [(swapsTo_frame hsw).1]
      exact .drives _ hv rfl
    | holds pos => exact .keeps rfl fun _ => rfl

theorem step_busEffect {s t : State} (h : step s = .next t) (hext : ∀ w later, s.schedule ≠ .ext w :: later) :
    BusEffect s t := by
  obtain ⟨a, later, hs, ha⟩ | ⟨-, -, i, rest, -, he⟩ | ⟨-, -, he⟩ := step_eq_next h
  · refine busEffect_of_queues (later := later) (l := s.waiting) ?_
    obtain ⟨bytes, rest, i, -, -, -, -, he⟩ | ⟨k, -, rfl | ⟨i, -, -, he⟩⟩ | ⟨-, he⟩ | ⟨w, rfl, -⟩ |
      ⟨c, -, ⟨-, he⟩ | ⟨-, rfl⟩⟩ := agentStep_eq_next ha
    · exact exec_busEffect he
    · exact .keeps rfl fun _ => rfl
    · exact busEffect_of_queues (exec_busEffect he)
    · exact tick_busEffect he
    · exact absurd hs (hext w later)
    · obtain ⟨hv, rfl⟩ := faultEntry_eq_next he
      exact .drives _ hv rfl
    · exact .keeps rfl fun _ => rfl
  · exact busEffect_of_queues (later := s.schedule) (exec_busEffect he)
  · exact tick_busEffect he

/-- Settles O50: every write of BUS is masked, by the masks held or by those CONFIGURE installs. -/
theorem foreignBitsNeverDisturbed : Obligations.ForeignBitsNeverDisturbed := by
  intro s t h hext
  cases step_busEffect h hext with
  | keeps hbus hfrozen =>
    rw [hbus]
    exact ⟨fun _ => rfl, fun _ _ => rfl, fun hv _ => ⟨rfl, hfrozen hv⟩⟩
  | drives w hv hbus => simp [hv, hbus, withoutBits_maskedWrite]
  | configures w hv hv' hbus => simp [hv, hv', hbus, withoutBits_maskedWrite]

end Sys2Proof.Proofs
